-- ==== Sys2Proof/Word.lean ====
section
/-! DEFINITION. The two widths of the machine: the byte of every bus access and the 16-bit address
(spec/00_scope.md R5, R6; spec/20_memory.md R50, R59). -/

namespace Sys2Proof

/-- One byte: the width of every register but PC and of every bus access (R59). -/
abbrev Byte := BitVec 8

/-- One 16-bit address (R50). -/
abbrev Word := BitVec 16

end Sys2Proof
end

