-- ==== Sys2Proof/Syntax.lean ====
section
/-! DEFINITION. The instructions: one constructor for each of the 256 rows of spec/opcode_table.json
(spec/30_encoding.md R107, R108).  A constructor carries the operand bytes its addressing mode fetches
(R90, R105): a byte for the two-byte formats, a 16-bit address for the three-byte ones.  The rows with an
operand come first, then the one-byte rows, each in the order of the opcode byte: Lean's compiler gives a
constructor with arguments no tag above 243. -/

namespace Sys2Proof

/-- One constructor per opcode byte.  Each line names the byte, the mode and the rule of its meaning. -/
inductive Instr where
  | oraIzx (zp : Byte)  -- 0x01 ORA izx, R161
  | sloIzx (zp : Byte)  -- 0x03 SLO izx, R241
  | nop04 (zp : Byte)  -- 0x04 NOP zp, R256
  | oraZp (zp : Byte)  -- 0x05 ORA zp, R161
  | aslZp (zp : Byte)  -- 0x06 ASL zp, R181
  | sloZp (zp : Byte)  -- 0x07 SLO zp, R241
  | oraImm (imm : Byte)  -- 0x09 ORA imm, R161
  | anc0B (imm : Byte)  -- 0x0B ANC imm, R249
  | nop0C (addr : Word)  -- 0x0C NOP abs, R256
  | oraAbs (addr : Word)  -- 0x0D ORA abs, R161
  | aslAbs (addr : Word)  -- 0x0E ASL abs, R181
  | sloAbs (addr : Word)  -- 0x0F SLO abs, R241
  | bpl (off : Byte)  -- 0x10 BPL rel, R207
  | oraIzy (zp : Byte)  -- 0x11 ORA izy, R161
  | sloIzy (zp : Byte)  -- 0x13 SLO izy, R241
  | nop14 (zp : Byte)  -- 0x14 NOP zpx, R256
  | oraZpx (zp : Byte)  -- 0x15 ORA zpx, R161
  | aslZpx (zp : Byte)  -- 0x16 ASL zpx, R181
  | sloZpx (zp : Byte)  -- 0x17 SLO zpx, R241
  | oraAby (addr : Word)  -- 0x19 ORA aby, R161
  | sloAby (addr : Word)  -- 0x1B SLO aby, R241
  | nop1C (addr : Word)  -- 0x1C NOP abx, R256
  | oraAbx (addr : Word)  -- 0x1D ORA abx, R161
  | aslAbx (addr : Word)  -- 0x1E ASL abx, R181
  | sloAbx (addr : Word)  -- 0x1F SLO abx, R241
  | jsr (addr : Word)  -- 0x20 JSR abs, R203
  | andIzx (zp : Byte)  -- 0x21 AND izx, R162
  | rlaIzx (zp : Byte)  -- 0x23 RLA izx, R242
  | bitZp (zp : Byte)  -- 0x24 BIT zp, R169
  | andZp (zp : Byte)  -- 0x25 AND zp, R162
  | rolZp (zp : Byte)  -- 0x26 ROL zp, R183
  | rlaZp (zp : Byte)  -- 0x27 RLA zp, R242
  | andImm (imm : Byte)  -- 0x29 AND imm, R162
  | anc2B (imm : Byte)  -- 0x2B ANC imm, R249
  | bitAbs (addr : Word)  -- 0x2C BIT abs, R169
  | andAbs (addr : Word)  -- 0x2D AND abs, R162
  | rolAbs (addr : Word)  -- 0x2E ROL abs, R183
  | rlaAbs (addr : Word)  -- 0x2F RLA abs, R242
  | bmi (off : Byte)  -- 0x30 BMI rel, R208
  | andIzy (zp : Byte)  -- 0x31 AND izy, R162
  | rlaIzy (zp : Byte)  -- 0x33 RLA izy, R242
  | nop34 (zp : Byte)  -- 0x34 NOP zpx, R256
  | andZpx (zp : Byte)  -- 0x35 AND zpx, R162
  | rolZpx (zp : Byte)  -- 0x36 ROL zpx, R183
  | rlaZpx (zp : Byte)  -- 0x37 RLA zpx, R242
  | andAby (addr : Word)  -- 0x39 AND aby, R162
  | rlaAby (addr : Word)  -- 0x3B RLA aby, R242
  | nop3C (addr : Word)  -- 0x3C NOP abx, R256
  | andAbx (addr : Word)  -- 0x3D AND abx, R162
  | rolAbx (addr : Word)  -- 0x3E ROL abx, R183
  | rlaAbx (addr : Word)  -- 0x3F RLA abx, R242
  | eorIzx (zp : Byte)  -- 0x41 EOR izx, R163
  | sreIzx (zp : Byte)  -- 0x43 SRE izx, R243
  | nop44 (zp : Byte)  -- 0x44 NOP zp, R256
  | eorZp (zp : Byte)  -- 0x45 EOR zp, R163
  | lsrZp (zp : Byte)  -- 0x46 LSR zp, R182
  | sreZp (zp : Byte)  -- 0x47 SRE zp, R243
  | eorImm (imm : Byte)  -- 0x49 EOR imm, R163
  | alr (imm : Byte)  -- 0x4B ALR imm, R250
  | jmpAbs (addr : Word)  -- 0x4C JMP abs, R201
  | eorAbs (addr : Word)  -- 0x4D EOR abs, R163
  | lsrAbs (addr : Word)  -- 0x4E LSR abs, R182
  | sreAbs (addr : Word)  -- 0x4F SRE abs, R243
  | bvc (off : Byte)  -- 0x50 BVC rel, R209
  | eorIzy (zp : Byte)  -- 0x51 EOR izy, R163
  | sreIzy (zp : Byte)  -- 0x53 SRE izy, R243
  | nop54 (zp : Byte)  -- 0x54 NOP zpx, R256
  | eorZpx (zp : Byte)  -- 0x55 EOR zpx, R163
  | lsrZpx (zp : Byte)  -- 0x56 LSR zpx, R182
  | sreZpx (zp : Byte)  -- 0x57 SRE zpx, R243
  | eorAby (addr : Word)  -- 0x59 EOR aby, R163
  | sreAby (addr : Word)  -- 0x5B SRE aby, R243
  | nop5C (addr : Word)  -- 0x5C NOP abx, R256
  | eorAbx (addr : Word)  -- 0x5D EOR abx, R163
  | lsrAbx (addr : Word)  -- 0x5E LSR abx, R182
  | sreAbx (addr : Word)  -- 0x5F SRE abx, R243
  | adcIzx (zp : Byte)  -- 0x61 ADC izx, R164
  | rraIzx (zp : Byte)  -- 0x63 RRA izx, R244
  | nop64 (zp : Byte)  -- 0x64 NOP zp, R256
  | adcZp (zp : Byte)  -- 0x65 ADC zp, R164
  | rorZp (zp : Byte)  -- 0x66 ROR zp, R184
  | rraZp (zp : Byte)  -- 0x67 RRA zp, R244
  | adcImm (imm : Byte)  -- 0x69 ADC imm, R164
  | arr (imm : Byte)  -- 0x6B ARR imm, R251
  | jmpInd (addr : Word)  -- 0x6C JMP ind, R202
  | adcAbs (addr : Word)  -- 0x6D ADC abs, R164
  | rorAbs (addr : Word)  -- 0x6E ROR abs, R184
  | rraAbs (addr : Word)  -- 0x6F RRA abs, R244
  | bvs (off : Byte)  -- 0x70 BVS rel, R210
  | adcIzy (zp : Byte)  -- 0x71 ADC izy, R164
  | rraIzy (zp : Byte)  -- 0x73 RRA izy, R244
  | nop74 (zp : Byte)  -- 0x74 NOP zpx, R256
  | adcZpx (zp : Byte)  -- 0x75 ADC zpx, R164
  | rorZpx (zp : Byte)  -- 0x76 ROR zpx, R184
  | rraZpx (zp : Byte)  -- 0x77 RRA zpx, R244
  | adcAby (addr : Word)  -- 0x79 ADC aby, R164
  | rraAby (addr : Word)  -- 0x7B RRA aby, R244
  | nop7C (addr : Word)  -- 0x7C NOP abx, R256
  | adcAbx (addr : Word)  -- 0x7D ADC abx, R164
  | rorAbx (addr : Word)  -- 0x7E ROR abx, R184
  | rraAbx (addr : Word)  -- 0x7F RRA abx, R244
  | nop80 (imm : Byte)  -- 0x80 NOP imm, R255
  | staIzx (zp : Byte)  -- 0x81 STA izx, R134
  | nop82 (imm : Byte)  -- 0x82 NOP imm, R255
  | saxIzx (zp : Byte)  -- 0x83 SAX izx, R245
  | styZp (zp : Byte)  -- 0x84 STY zp, R136
  | staZp (zp : Byte)  -- 0x85 STA zp, R134
  | stxZp (zp : Byte)  -- 0x86 STX zp, R135
  | saxZp (zp : Byte)  -- 0x87 SAX zp, R245
  | nop89 (imm : Byte)  -- 0x89 NOP imm, R255
  | xaa (imm : Byte)  -- 0x8B XAA imm, R262
  | styAbs (addr : Word)  -- 0x8C STY abs, R136
  | staAbs (addr : Word)  -- 0x8D STA abs, R134
  | stxAbs (addr : Word)  -- 0x8E STX abs, R135
  | saxAbs (addr : Word)  -- 0x8F SAX abs, R245
  | bcc (off : Byte)  -- 0x90 BCC rel, R211
  | staIzy (zp : Byte)  -- 0x91 STA izy, R134
  | ahxIzy (zp : Byte)  -- 0x93 AHX izy, R262
  | styZpx (zp : Byte)  -- 0x94 STY zpx, R136
  | staZpx (zp : Byte)  -- 0x95 STA zpx, R134
  | stxZpy (zp : Byte)  -- 0x96 STX zpy, R135
  | saxZpy (zp : Byte)  -- 0x97 SAX zpy, R245
  | staAby (addr : Word)  -- 0x99 STA aby, R134
  | tas (addr : Word)  -- 0x9B TAS aby, R262
  | shy (addr : Word)  -- 0x9C SHY abx, R262
  | staAbx (addr : Word)  -- 0x9D STA abx, R134
  | shx (addr : Word)  -- 0x9E SHX aby, R262
  | ahxAby (addr : Word)  -- 0x9F AHX aby, R262
  | ldyImm (imm : Byte)  -- 0xA0 LDY imm, R133
  | ldaIzx (zp : Byte)  -- 0xA1 LDA izx, R131
  | ldxImm (imm : Byte)  -- 0xA2 LDX imm, R132
  | laxIzx (zp : Byte)  -- 0xA3 LAX izx, R246
  | ldyZp (zp : Byte)  -- 0xA4 LDY zp, R133
  | ldaZp (zp : Byte)  -- 0xA5 LDA zp, R131
  | ldxZp (zp : Byte)  -- 0xA6 LDX zp, R132
  | laxZp (zp : Byte)  -- 0xA7 LAX zp, R246
  | ldaImm (imm : Byte)  -- 0xA9 LDA imm, R131
  | lxa (imm : Byte)  -- 0xAB LXA imm, R262
  | ldyAbs (addr : Word)  -- 0xAC LDY abs, R133
  | ldaAbs (addr : Word)  -- 0xAD LDA abs, R131
  | ldxAbs (addr : Word)  -- 0xAE LDX abs, R132
  | laxAbs (addr : Word)  -- 0xAF LAX abs, R246
  | bcs (off : Byte)  -- 0xB0 BCS rel, R212
  | ldaIzy (zp : Byte)  -- 0xB1 LDA izy, R131
  | laxIzy (zp : Byte)  -- 0xB3 LAX izy, R246
  | ldyZpx (zp : Byte)  -- 0xB4 LDY zpx, R133
  | ldaZpx (zp : Byte)  -- 0xB5 LDA zpx, R131
  | ldxZpy (zp : Byte)  -- 0xB6 LDX zpy, R132
  | laxZpy (zp : Byte)  -- 0xB7 LAX zpy, R246
  | ldaAby (addr : Word)  -- 0xB9 LDA aby, R131
  | las (addr : Word)  -- 0xBB LAS aby, R262
  | ldyAbx (addr : Word)  -- 0xBC LDY abx, R133
  | ldaAbx (addr : Word)  -- 0xBD LDA abx, R131
  | ldxAby (addr : Word)  -- 0xBE LDX aby, R132
  | laxAby (addr : Word)  -- 0xBF LAX aby, R246
  | cpyImm (imm : Byte)  -- 0xC0 CPY imm, R168
  | cmpIzx (zp : Byte)  -- 0xC1 CMP izx, R166
  | nopC2 (imm : Byte)  -- 0xC2 NOP imm, R255
  | dcpIzx (zp : Byte)  -- 0xC3 DCP izx, R247
  | cpyZp (zp : Byte)  -- 0xC4 CPY zp, R168
  | cmpZp (zp : Byte)  -- 0xC5 CMP zp, R166
  | decZp (zp : Byte)  -- 0xC6 DEC zp, R186
  | dcpZp (zp : Byte)  -- 0xC7 DCP zp, R247
  | cmpImm (imm : Byte)  -- 0xC9 CMP imm, R166
  | axs (imm : Byte)  -- 0xCB AXS imm, R252
  | cpyAbs (addr : Word)  -- 0xCC CPY abs, R168
  | cmpAbs (addr : Word)  -- 0xCD CMP abs, R166
  | decAbs (addr : Word)  -- 0xCE DEC abs, R186
  | dcpAbs (addr : Word)  -- 0xCF DCP abs, R247
  | bne (off : Byte)  -- 0xD0 BNE rel, R213
  | cmpIzy (zp : Byte)  -- 0xD1 CMP izy, R166
  | dcpIzy (zp : Byte)  -- 0xD3 DCP izy, R247
  | nopD4 (zp : Byte)  -- 0xD4 NOP zpx, R256
  | cmpZpx (zp : Byte)  -- 0xD5 CMP zpx, R166
  | decZpx (zp : Byte)  -- 0xD6 DEC zpx, R186
  | dcpZpx (zp : Byte)  -- 0xD7 DCP zpx, R247
  | cmpAby (addr : Word)  -- 0xD9 CMP aby, R166
  | dcpAby (addr : Word)  -- 0xDB DCP aby, R247
  | nopDC (addr : Word)  -- 0xDC NOP abx, R256
  | cmpAbx (addr : Word)  -- 0xDD CMP abx, R166
  | decAbx (addr : Word)  -- 0xDE DEC abx, R186
  | dcpAbx (addr : Word)  -- 0xDF DCP abx, R247
  | cpxImm (imm : Byte)  -- 0xE0 CPX imm, R167
  | sbcIzx (zp : Byte)  -- 0xE1 SBC izx, R165
  | nopE2 (imm : Byte)  -- 0xE2 NOP imm, R255
  | iscIzx (zp : Byte)  -- 0xE3 ISC izx, R248
  | cpxZp (zp : Byte)  -- 0xE4 CPX zp, R167
  | sbcZp (zp : Byte)  -- 0xE5 SBC zp, R165
  | incZp (zp : Byte)  -- 0xE6 INC zp, R185
  | iscZp (zp : Byte)  -- 0xE7 ISC zp, R248
  | sbcImm (imm : Byte)  -- 0xE9 SBC imm, R165
  | sbcEB (imm : Byte)  -- 0xEB SBC imm, R253
  | cpxAbs (addr : Word)  -- 0xEC CPX abs, R167
  | sbcAbs (addr : Word)  -- 0xED SBC abs, R165
  | incAbs (addr : Word)  -- 0xEE INC abs, R185
  | iscAbs (addr : Word)  -- 0xEF ISC abs, R248
  | beq (off : Byte)  -- 0xF0 BEQ rel, R214
  | sbcIzy (zp : Byte)  -- 0xF1 SBC izy, R165
  | iscIzy (zp : Byte)  -- 0xF3 ISC izy, R248
  | nopF4 (zp : Byte)  -- 0xF4 NOP zpx, R256
  | sbcZpx (zp : Byte)  -- 0xF5 SBC zpx, R165
  | incZpx (zp : Byte)  -- 0xF6 INC zpx, R185
  | iscZpx (zp : Byte)  -- 0xF7 ISC zpx, R248
  | sbcAby (addr : Word)  -- 0xF9 SBC aby, R165
  | iscAby (addr : Word)  -- 0xFB ISC aby, R248
  | nopFC (addr : Word)  -- 0xFC NOP abx, R256
  | sbcAbx (addr : Word)  -- 0xFD SBC abx, R165
  | incAbx (addr : Word)  -- 0xFE INC abx, R185
  | iscAbx (addr : Word)  -- 0xFF ISC abx, R248
  | brk  -- 0x00 BRK imp, R206
  | kil02  -- 0x02 KIL imp, R260
  | php  -- 0x08 PHP imp, R152
  | aslAcc  -- 0x0A ASL acc, R181
  | kil12  -- 0x12 KIL imp, R260
  | clc  -- 0x18 CLC imp, R230
  | nop1A  -- 0x1A NOP imp, R254
  | kil22  -- 0x22 KIL imp, R260
  | plp  -- 0x28 PLP imp, R154
  | rolAcc  -- 0x2A ROL acc, R183
  | kil32  -- 0x32 KIL imp, R260
  | sec  -- 0x38 SEC imp, R231
  | nop3A  -- 0x3A NOP imp, R254
  | rti  -- 0x40 RTI imp, R205
  | kil42  -- 0x42 KIL imp, R260
  | pha  -- 0x48 PHA imp, R151
  | lsrAcc  -- 0x4A LSR acc, R182
  | kil52  -- 0x52 KIL imp, R260
  | cli  -- 0x58 CLI imp, R232
  | nop5A  -- 0x5A NOP imp, R254
  | rts  -- 0x60 RTS imp, R204
  | kil62  -- 0x62 KIL imp, R260
  | pla  -- 0x68 PLA imp, R153
  | rorAcc  -- 0x6A ROR acc, R184
  | kil72  -- 0x72 KIL imp, R260
  | sei  -- 0x78 SEI imp, R233
  | nop7A  -- 0x7A NOP imp, R254
  | dey  -- 0x88 DEY imp, R190
  | txa  -- 0x8A TXA imp, R139
  | kil92  -- 0x92 KIL imp, R260
  | tya  -- 0x98 TYA imp, R140
  | txs  -- 0x9A TXS imp, R142
  | tay  -- 0xA8 TAY imp, R138
  | tax  -- 0xAA TAX imp, R137
  | kilB2  -- 0xB2 KIL imp, R260
  | clv  -- 0xB8 CLV imp, R234
  | tsx  -- 0xBA TSX imp, R141
  | iny  -- 0xC8 INY imp, R188
  | dex  -- 0xCA DEX imp, R189
  | kilD2  -- 0xD2 KIL imp, R260
  | cld  -- 0xD8 CLD imp, R235
  | nopDA  -- 0xDA NOP imp, R254
  | inx  -- 0xE8 INX imp, R187
  | nop  -- 0xEA NOP imp, R237
  | kilF2  -- 0xF2 KIL imp, R260
  | sed  -- 0xF8 SED imp, R236
  | nopFA  -- 0xFA NOP imp, R254
  deriving DecidableEq, Repr

end Sys2Proof
end

