-- ==== Sys2Proof/WellFormed.lean ====
section
/-! DEFINITION. Well-formed instructions.  The operand widths are in the types, so every term has an
encoding; what remains to check is that the instruction belongs to the admitted subset of
spec/00_scope.md R11: the 151 official opcodes and the 97 unofficial ones with a meaning, not the eight
unstable ones of spec/46_unofficial.md R262. -/

namespace Sys2Proof

/-- The eight unstable opcodes, to which the spec gives no meaning (R262). -/
def Instr.unstable : Instr → Bool
  | .xaa _ => true
  | .ahxIzy _ => true
  | .tas _ => true
  | .shy _ => true
  | .shx _ => true
  | .ahxAby _ => true
  | .lxa _ => true
  | .las _ => true
  | _ => false

/-- The instruction is in the admitted subset (R11). -/
def Instr.wf (i : Instr) : Bool := !i.unstable

end Sys2Proof
end

