-- ==== Sys2Proof/Decode.lean ====
section
/-! DEFINITION. The decoder, total on any list of bytes, and after it the encoder
(spec/30_encoding.md R90, R105 to R107, R110). -/

namespace Sys2Proof

/-- Low byte of a 16-bit value (spec/00_scope.md R6). -/
def loByte (w : Word) : Byte := w.extractLsb' 0 8

/-- High byte of a 16-bit value (R6). -/
def hiByte (w : Word) : Byte := w.extractLsb' 8 8

/-- The 16-bit value `{hi, lo}` of two bytes stored low byte first (spec/20_memory.md R57). -/
def wordOf (lo hi : Byte) : Word := hi ++ lo

/-- One cell of the opcode map: an instruction of one, two or three bytes and how its operand is
assembled (R90, R105, R106). -/
inductive Row where
  | one (i : Instr)
  | two (mk : Byte → Instr)
  | three (mk : Word → Instr)

/-- Row 0x of the opcode map (R107). -/
def opcodeRow0 : List Row :=
  [.one .brk, .two .oraIzx, .one .kil02, .two .sloIzx,
   .two .nop04, .two .oraZp, .two .aslZp, .two .sloZp,
   .one .php, .two .oraImm, .one .aslAcc, .two .anc0B,
   .three .nop0C, .three .oraAbs, .three .aslAbs, .three .sloAbs]

/-- Row 1x of the opcode map (R107). -/
def opcodeRow1 : List Row :=
  [.two .bpl, .two .oraIzy, .one .kil12, .two .sloIzy,
   .two .nop14, .two .oraZpx, .two .aslZpx, .two .sloZpx,
   .one .clc, .three .oraAby, .one .nop1A, .three .sloAby,
   .three .nop1C, .three .oraAbx, .three .aslAbx, .three .sloAbx]

/-- Row 2x of the opcode map (R107). -/
def opcodeRow2 : List Row :=
  [.three .jsr, .two .andIzx, .one .kil22, .two .rlaIzx,
   .two .bitZp, .two .andZp, .two .rolZp, .two .rlaZp,
   .one .plp, .two .andImm, .one .rolAcc, .two .anc2B,
   .three .bitAbs, .three .andAbs, .three .rolAbs, .three .rlaAbs]

/-- Row 3x of the opcode map (R107). -/
def opcodeRow3 : List Row :=
  [.two .bmi, .two .andIzy, .one .kil32, .two .rlaIzy,
   .two .nop34, .two .andZpx, .two .rolZpx, .two .rlaZpx,
   .one .sec, .three .andAby, .one .nop3A, .three .rlaAby,
   .three .nop3C, .three .andAbx, .three .rolAbx, .three .rlaAbx]

/-- Row 4x of the opcode map (R107). -/
def opcodeRow4 : List Row :=
  [.one .rti, .two .eorIzx, .one .kil42, .two .sreIzx,
   .two .nop44, .two .eorZp, .two .lsrZp, .two .sreZp,
   .one .pha, .two .eorImm, .one .lsrAcc, .two .alr,
   .three .jmpAbs, .three .eorAbs, .three .lsrAbs, .three .sreAbs]

/-- Row 5x of the opcode map (R107). -/
def opcodeRow5 : List Row :=
  [.two .bvc, .two .eorIzy, .one .kil52, .two .sreIzy,
   .two .nop54, .two .eorZpx, .two .lsrZpx, .two .sreZpx,
   .one .cli, .three .eorAby, .one .nop5A, .three .sreAby,
   .three .nop5C, .three .eorAbx, .three .lsrAbx, .three .sreAbx]

/-- Row 6x of the opcode map (R107). -/
def opcodeRow6 : List Row :=
  [.one .rts, .two .adcIzx, .one .kil62, .two .rraIzx,
   .two .nop64, .two .adcZp, .two .rorZp, .two .rraZp,
   .one .pla, .two .adcImm, .one .rorAcc, .two .arr,
   .three .jmpInd, .three .adcAbs, .three .rorAbs, .three .rraAbs]

/-- Row 7x of the opcode map (R107). -/
def opcodeRow7 : List Row :=
  [.two .bvs, .two .adcIzy, .one .kil72, .two .rraIzy,
   .two .nop74, .two .adcZpx, .two .rorZpx, .two .rraZpx,
   .one .sei, .three .adcAby, .one .nop7A, .three .rraAby,
   .three .nop7C, .three .adcAbx, .three .rorAbx, .three .rraAbx]

/-- Row 8x of the opcode map (R107). -/
def opcodeRow8 : List Row :=
  [.two .nop80, .two .staIzx, .two .nop82, .two .saxIzx,
   .two .styZp, .two .staZp, .two .stxZp, .two .saxZp,
   .one .dey, .two .nop89, .one .txa, .two .xaa,
   .three .styAbs, .three .staAbs, .three .stxAbs, .three .saxAbs]

/-- Row 9x of the opcode map (R107). -/
def opcodeRow9 : List Row :=
  [.two .bcc, .two .staIzy, .one .kil92, .two .ahxIzy,
   .two .styZpx, .two .staZpx, .two .stxZpy, .two .saxZpy,
   .one .tya, .three .staAby, .one .txs, .three .tas,
   .three .shy, .three .staAbx, .three .shx, .three .ahxAby]

/-- Row Ax of the opcode map (R107). -/
def opcodeRowA : List Row :=
  [.two .ldyImm, .two .ldaIzx, .two .ldxImm, .two .laxIzx,
   .two .ldyZp, .two .ldaZp, .two .ldxZp, .two .laxZp,
   .one .tay, .two .ldaImm, .one .tax, .two .lxa,
   .three .ldyAbs, .three .ldaAbs, .three .ldxAbs, .three .laxAbs]

/-- Row Bx of the opcode map (R107). -/
def opcodeRowB : List Row :=
  [.two .bcs, .two .ldaIzy, .one .kilB2, .two .laxIzy,
   .two .ldyZpx, .two .ldaZpx, .two .ldxZpy, .two .laxZpy,
   .one .clv, .three .ldaAby, .one .tsx, .three .las,
   .three .ldyAbx, .three .ldaAbx, .three .ldxAby, .three .laxAby]

/-- Row Cx of the opcode map (R107). -/
def opcodeRowC : List Row :=
  [.two .cpyImm, .two .cmpIzx, .two .nopC2, .two .dcpIzx,
   .two .cpyZp, .two .cmpZp, .two .decZp, .two .dcpZp,
   .one .iny, .two .cmpImm, .one .dex, .two .axs,
   .three .cpyAbs, .three .cmpAbs, .three .decAbs, .three .dcpAbs]

/-- Row Dx of the opcode map (R107). -/
def opcodeRowD : List Row :=
  [.two .bne, .two .cmpIzy, .one .kilD2, .two .dcpIzy,
   .two .nopD4, .two .cmpZpx, .two .decZpx, .two .dcpZpx,
   .one .cld, .three .cmpAby, .one .nopDA, .three .dcpAby,
   .three .nopDC, .three .cmpAbx, .three .decAbx, .three .dcpAbx]

/-- Row Ex of the opcode map (R107). -/
def opcodeRowE : List Row :=
  [.two .cpxImm, .two .sbcIzx, .two .nopE2, .two .iscIzx,
   .two .cpxZp, .two .sbcZp, .two .incZp, .two .iscZp,
   .one .inx, .two .sbcImm, .one .nop, .two .sbcEB,
   .three .cpxAbs, .three .sbcAbs, .three .incAbs, .three .iscAbs]

/-- Row Fx of the opcode map (R107). -/
def opcodeRowF : List Row :=
  [.two .beq, .two .sbcIzy, .one .kilF2, .two .iscIzy,
   .two .nopF4, .two .sbcZpx, .two .incZpx, .two .iscZpx,
   .one .sed, .three .sbcAby, .one .nopFA, .three .iscAby,
   .three .nopFC, .three .sbcAbx, .three .incAbx, .three .iscAbx]

/-- The 16 x 16 opcode map: rows by the high nibble, columns by the low one (R107). -/
def opcodeMap : List (List Row) :=
  [opcodeRow0, opcodeRow1, opcodeRow2, opcodeRow3, opcodeRow4, opcodeRow5, opcodeRow6, opcodeRow7,
   opcodeRow8, opcodeRow9, opcodeRowA, opcodeRowB, opcodeRowC, opcodeRowD, opcodeRowE, opcodeRowF]

/-- The cell of an opcode byte.  The map has a cell for each of the 256 bytes (R110), so the two
defaults are never reached. -/
def rowOf (op : Byte) : Row :=
  (opcodeMap.getD (op.toNat / 16) []).getD (op.toNat % 16) (.one .nop)

/-- Length of the instruction of a cell in bytes (R106). -/
def Row.length : Row → Nat
  | .one _ => 1
  | .two _ => 2
  | .three _ => 3

/-- The instruction of a cell with the two bytes after the opcode; a shorter form ignores the rest. -/
def Row.build : Row → Byte → Byte → Instr
  | .one i, _, _ => i
  | .two mk, b1, _ => mk b1
  | .three mk, b1, b2 => mk (wordOf b1 b2)

/-- Why a list of bytes holds no instruction: only for want of bytes, since every opcode byte has a
row (R110). -/
inductive DecodeError where
  /-- No byte at all. -/
  | noBytes
  /-- The opcode's operand bytes are missing. -/
  | truncated (opcode : Byte)
  deriving DecidableEq, Repr

/-- Decode the first instruction of a list of bytes and return the bytes after it (R90, R107). -/
def decode : List Byte → Except DecodeError (Instr × List Byte)
  | [] => .error .noBytes
  | op :: rest =>
    match rowOf op, rest with
    | .one i, rest => .ok (i, rest)
    | .two mk, b1 :: rest => .ok (mk b1, rest)
    | .three mk, b1 :: b2 :: rest => .ok (mk (wordOf b1 b2), rest)
    | .two _, [] => .error (.truncated op)
    | .three _, [] => .error (.truncated op)
    | .three _, [_] => .error (.truncated op)

/-- The decoder on a word numbered as spec/opcode_table.json numbers its rows: byte 0 in bits 7..0,
byte 1 in bits 15..8, byte 2 in bits 23..16; the bits from `nbits` on are 0. -/
def decodeTableWord (nbits w : Nat) : Option Instr :=
  let u := w % 2 ^ nbits
  match decode [BitVec.ofNat 8 u, BitVec.ofNat 8 (u / 256), BitVec.ofNat 8 (u / 65536)] with
  | .ok (i, _) => some i
  | .error _ => none

/-- The bytes of an instruction in memory order: opcode, then the operand, a 16-bit one low byte first
(R90, R107). -/
def encode : Instr → List Byte
  | .oraIzx b => [0x01#8, b]
  | .sloIzx b => [0x03#8, b]
  | .nop04 b => [0x04#8, b]
  | .oraZp b => [0x05#8, b]
  | .aslZp b => [0x06#8, b]
  | .sloZp b => [0x07#8, b]
  | .oraImm b => [0x09#8, b]
  | .anc0B b => [0x0B#8, b]
  | .nop0C w => [0x0C#8, loByte w, hiByte w]
  | .oraAbs w => [0x0D#8, loByte w, hiByte w]
  | .aslAbs w => [0x0E#8, loByte w, hiByte w]
  | .sloAbs w => [0x0F#8, loByte w, hiByte w]
  | .bpl b => [0x10#8, b]
  | .oraIzy b => [0x11#8, b]
  | .sloIzy b => [0x13#8, b]
  | .nop14 b => [0x14#8, b]
  | .oraZpx b => [0x15#8, b]
  | .aslZpx b => [0x16#8, b]
  | .sloZpx b => [0x17#8, b]
  | .oraAby w => [0x19#8, loByte w, hiByte w]
  | .sloAby w => [0x1B#8, loByte w, hiByte w]
  | .nop1C w => [0x1C#8, loByte w, hiByte w]
  | .oraAbx w => [0x1D#8, loByte w, hiByte w]
  | .aslAbx w => [0x1E#8, loByte w, hiByte w]
  | .sloAbx w => [0x1F#8, loByte w, hiByte w]
  | .jsr w => [0x20#8, loByte w, hiByte w]
  | .andIzx b => [0x21#8, b]
  | .rlaIzx b => [0x23#8, b]
  | .bitZp b => [0x24#8, b]
  | .andZp b => [0x25#8, b]
  | .rolZp b => [0x26#8, b]
  | .rlaZp b => [0x27#8, b]
  | .andImm b => [0x29#8, b]
  | .anc2B b => [0x2B#8, b]
  | .bitAbs w => [0x2C#8, loByte w, hiByte w]
  | .andAbs w => [0x2D#8, loByte w, hiByte w]
  | .rolAbs w => [0x2E#8, loByte w, hiByte w]
  | .rlaAbs w => [0x2F#8, loByte w, hiByte w]
  | .bmi b => [0x30#8, b]
  | .andIzy b => [0x31#8, b]
  | .rlaIzy b => [0x33#8, b]
  | .nop34 b => [0x34#8, b]
  | .andZpx b => [0x35#8, b]
  | .rolZpx b => [0x36#8, b]
  | .rlaZpx b => [0x37#8, b]
  | .andAby w => [0x39#8, loByte w, hiByte w]
  | .rlaAby w => [0x3B#8, loByte w, hiByte w]
  | .nop3C w => [0x3C#8, loByte w, hiByte w]
  | .andAbx w => [0x3D#8, loByte w, hiByte w]
  | .rolAbx w => [0x3E#8, loByte w, hiByte w]
  | .rlaAbx w => [0x3F#8, loByte w, hiByte w]
  | .eorIzx b => [0x41#8, b]
  | .sreIzx b => [0x43#8, b]
  | .nop44 b => [0x44#8, b]
  | .eorZp b => [0x45#8, b]
  | .lsrZp b => [0x46#8, b]
  | .sreZp b => [0x47#8, b]
  | .eorImm b => [0x49#8, b]
  | .alr b => [0x4B#8, b]
  | .jmpAbs w => [0x4C#8, loByte w, hiByte w]
  | .eorAbs w => [0x4D#8, loByte w, hiByte w]
  | .lsrAbs w => [0x4E#8, loByte w, hiByte w]
  | .sreAbs w => [0x4F#8, loByte w, hiByte w]
  | .bvc b => [0x50#8, b]
  | .eorIzy b => [0x51#8, b]
  | .sreIzy b => [0x53#8, b]
  | .nop54 b => [0x54#8, b]
  | .eorZpx b => [0x55#8, b]
  | .lsrZpx b => [0x56#8, b]
  | .sreZpx b => [0x57#8, b]
  | .eorAby w => [0x59#8, loByte w, hiByte w]
  | .sreAby w => [0x5B#8, loByte w, hiByte w]
  | .nop5C w => [0x5C#8, loByte w, hiByte w]
  | .eorAbx w => [0x5D#8, loByte w, hiByte w]
  | .lsrAbx w => [0x5E#8, loByte w, hiByte w]
  | .sreAbx w => [0x5F#8, loByte w, hiByte w]
  | .adcIzx b => [0x61#8, b]
  | .rraIzx b => [0x63#8, b]
  | .nop64 b => [0x64#8, b]
  | .adcZp b => [0x65#8, b]
  | .rorZp b => [0x66#8, b]
  | .rraZp b => [0x67#8, b]
  | .adcImm b => [0x69#8, b]
  | .arr b => [0x6B#8, b]
  | .jmpInd w => [0x6C#8, loByte w, hiByte w]
  | .adcAbs w => [0x6D#8, loByte w, hiByte w]
  | .rorAbs w => [0x6E#8, loByte w, hiByte w]
  | .rraAbs w => [0x6F#8, loByte w, hiByte w]
  | .bvs b => [0x70#8, b]
  | .adcIzy b => [0x71#8, b]
  | .rraIzy b => [0x73#8, b]
  | .nop74 b => [0x74#8, b]
  | .adcZpx b => [0x75#8, b]
  | .rorZpx b => [0x76#8, b]
  | .rraZpx b => [0x77#8, b]
  | .adcAby w => [0x79#8, loByte w, hiByte w]
  | .rraAby w => [0x7B#8, loByte w, hiByte w]
  | .nop7C w => [0x7C#8, loByte w, hiByte w]
  | .adcAbx w => [0x7D#8, loByte w, hiByte w]
  | .rorAbx w => [0x7E#8, loByte w, hiByte w]
  | .rraAbx w => [0x7F#8, loByte w, hiByte w]
  | .nop80 b => [0x80#8, b]
  | .staIzx b => [0x81#8, b]
  | .nop82 b => [0x82#8, b]
  | .saxIzx b => [0x83#8, b]
  | .styZp b => [0x84#8, b]
  | .staZp b => [0x85#8, b]
  | .stxZp b => [0x86#8, b]
  | .saxZp b => [0x87#8, b]
  | .nop89 b => [0x89#8, b]
  | .xaa b => [0x8B#8, b]
  | .styAbs w => [0x8C#8, loByte w, hiByte w]
  | .staAbs w => [0x8D#8, loByte w, hiByte w]
  | .stxAbs w => [0x8E#8, loByte w, hiByte w]
  | .saxAbs w => [0x8F#8, loByte w, hiByte w]
  | .bcc b => [0x90#8, b]
  | .staIzy b => [0x91#8, b]
  | .ahxIzy b => [0x93#8, b]
  | .styZpx b => [0x94#8, b]
  | .staZpx b => [0x95#8, b]
  | .stxZpy b => [0x96#8, b]
  | .saxZpy b => [0x97#8, b]
  | .staAby w => [0x99#8, loByte w, hiByte w]
  | .tas w => [0x9B#8, loByte w, hiByte w]
  | .shy w => [0x9C#8, loByte w, hiByte w]
  | .staAbx w => [0x9D#8, loByte w, hiByte w]
  | .shx w => [0x9E#8, loByte w, hiByte w]
  | .ahxAby w => [0x9F#8, loByte w, hiByte w]
  | .ldyImm b => [0xA0#8, b]
  | .ldaIzx b => [0xA1#8, b]
  | .ldxImm b => [0xA2#8, b]
  | .laxIzx b => [0xA3#8, b]
  | .ldyZp b => [0xA4#8, b]
  | .ldaZp b => [0xA5#8, b]
  | .ldxZp b => [0xA6#8, b]
  | .laxZp b => [0xA7#8, b]
  | .ldaImm b => [0xA9#8, b]
  | .lxa b => [0xAB#8, b]
  | .ldyAbs w => [0xAC#8, loByte w, hiByte w]
  | .ldaAbs w => [0xAD#8, loByte w, hiByte w]
  | .ldxAbs w => [0xAE#8, loByte w, hiByte w]
  | .laxAbs w => [0xAF#8, loByte w, hiByte w]
  | .bcs b => [0xB0#8, b]
  | .ldaIzy b => [0xB1#8, b]
  | .laxIzy b => [0xB3#8, b]
  | .ldyZpx b => [0xB4#8, b]
  | .ldaZpx b => [0xB5#8, b]
  | .ldxZpy b => [0xB6#8, b]
  | .laxZpy b => [0xB7#8, b]
  | .ldaAby w => [0xB9#8, loByte w, hiByte w]
  | .las w => [0xBB#8, loByte w, hiByte w]
  | .ldyAbx w => [0xBC#8, loByte w, hiByte w]
  | .ldaAbx w => [0xBD#8, loByte w, hiByte w]
  | .ldxAby w => [0xBE#8, loByte w, hiByte w]
  | .laxAby w => [0xBF#8, loByte w, hiByte w]
  | .cpyImm b => [0xC0#8, b]
  | .cmpIzx b => [0xC1#8, b]
  | .nopC2 b => [0xC2#8, b]
  | .dcpIzx b => [0xC3#8, b]
  | .cpyZp b => [0xC4#8, b]
  | .cmpZp b => [0xC5#8, b]
  | .decZp b => [0xC6#8, b]
  | .dcpZp b => [0xC7#8, b]
  | .cmpImm b => [0xC9#8, b]
  | .axs b => [0xCB#8, b]
  | .cpyAbs w => [0xCC#8, loByte w, hiByte w]
  | .cmpAbs w => [0xCD#8, loByte w, hiByte w]
  | .decAbs w => [0xCE#8, loByte w, hiByte w]
  | .dcpAbs w => [0xCF#8, loByte w, hiByte w]
  | .bne b => [0xD0#8, b]
  | .cmpIzy b => [0xD1#8, b]
  | .dcpIzy b => [0xD3#8, b]
  | .nopD4 b => [0xD4#8, b]
  | .cmpZpx b => [0xD5#8, b]
  | .decZpx b => [0xD6#8, b]
  | .dcpZpx b => [0xD7#8, b]
  | .cmpAby w => [0xD9#8, loByte w, hiByte w]
  | .dcpAby w => [0xDB#8, loByte w, hiByte w]
  | .nopDC w => [0xDC#8, loByte w, hiByte w]
  | .cmpAbx w => [0xDD#8, loByte w, hiByte w]
  | .decAbx w => [0xDE#8, loByte w, hiByte w]
  | .dcpAbx w => [0xDF#8, loByte w, hiByte w]
  | .cpxImm b => [0xE0#8, b]
  | .sbcIzx b => [0xE1#8, b]
  | .nopE2 b => [0xE2#8, b]
  | .iscIzx b => [0xE3#8, b]
  | .cpxZp b => [0xE4#8, b]
  | .sbcZp b => [0xE5#8, b]
  | .incZp b => [0xE6#8, b]
  | .iscZp b => [0xE7#8, b]
  | .sbcImm b => [0xE9#8, b]
  | .sbcEB b => [0xEB#8, b]
  | .cpxAbs w => [0xEC#8, loByte w, hiByte w]
  | .sbcAbs w => [0xED#8, loByte w, hiByte w]
  | .incAbs w => [0xEE#8, loByte w, hiByte w]
  | .iscAbs w => [0xEF#8, loByte w, hiByte w]
  | .beq b => [0xF0#8, b]
  | .sbcIzy b => [0xF1#8, b]
  | .iscIzy b => [0xF3#8, b]
  | .nopF4 b => [0xF4#8, b]
  | .sbcZpx b => [0xF5#8, b]
  | .incZpx b => [0xF6#8, b]
  | .iscZpx b => [0xF7#8, b]
  | .sbcAby w => [0xF9#8, loByte w, hiByte w]
  | .iscAby w => [0xFB#8, loByte w, hiByte w]
  | .nopFC w => [0xFC#8, loByte w, hiByte w]
  | .sbcAbx w => [0xFD#8, loByte w, hiByte w]
  | .incAbx w => [0xFE#8, loByte w, hiByte w]
  | .iscAbx w => [0xFF#8, loByte w, hiByte w]
  | .brk => [0x00#8]
  | .kil02 => [0x02#8]
  | .php => [0x08#8]
  | .aslAcc => [0x0A#8]
  | .kil12 => [0x12#8]
  | .clc => [0x18#8]
  | .nop1A => [0x1A#8]
  | .kil22 => [0x22#8]
  | .plp => [0x28#8]
  | .rolAcc => [0x2A#8]
  | .kil32 => [0x32#8]
  | .sec => [0x38#8]
  | .nop3A => [0x3A#8]
  | .rti => [0x40#8]
  | .kil42 => [0x42#8]
  | .pha => [0x48#8]
  | .lsrAcc => [0x4A#8]
  | .kil52 => [0x52#8]
  | .cli => [0x58#8]
  | .nop5A => [0x5A#8]
  | .rts => [0x60#8]
  | .kil62 => [0x62#8]
  | .pla => [0x68#8]
  | .rorAcc => [0x6A#8]
  | .kil72 => [0x72#8]
  | .sei => [0x78#8]
  | .nop7A => [0x7A#8]
  | .dey => [0x88#8]
  | .txa => [0x8A#8]
  | .kil92 => [0x92#8]
  | .tya => [0x98#8]
  | .txs => [0x9A#8]
  | .tay => [0xA8#8]
  | .tax => [0xAA#8]
  | .kilB2 => [0xB2#8]
  | .clv => [0xB8#8]
  | .tsx => [0xBA#8]
  | .iny => [0xC8#8]
  | .dex => [0xCA#8]
  | .kilD2 => [0xD2#8]
  | .cld => [0xD8#8]
  | .nopDA => [0xDA#8]
  | .inx => [0xE8#8]
  | .nop => [0xEA#8]
  | .kilF2 => [0xF2#8]
  | .sed => [0xF8#8]
  | .nopFA => [0xFA#8]

/-- The opcode byte of an instruction. -/
def opcodeOf (i : Instr) : Byte := (encode i).headD 0x00#8

end Sys2Proof
end

