-- ==== Sys2Proof/Config.lean ====
section
/-! DEFINITION. What the spec leaves to the implementation (spec/00_scope.md R5,
spec/92_eei_decisions.md section 2).  CYCLE_TABLE, POWER_ON_RAM and DMA_LENGTH are arguments of the machine, in the
field `args` of State; UNSTABLE_OPCODE_POLICY stands in the refusals of Machine/Unofficial.lean.  MIX and what
R586 leaves open of a saved state are free values. -/

namespace Sys2Proof.Config

/-- What an index a memory does not list reads as: 0x00, the default contents of POWER_ON_RAM, so that a machine
of the default argument lists nothing after a hard reset (R37, D17; logs 4, 17). -/
def unlistedByte : Byte := 0x00#8

/-- PULSE of R505 for a non-zero sum: the spec gives no formula.  A free value, log 10. -/
opaque pulseFree : Nat → Rat

/-- PULSE of R505, with PULSE(0) = 0, the one value the spec fixes (log 11). -/
def pulse (sum : Nat) : Rat := if sum = 0 then 0 else pulseFree sum

/-- TND of R505, of the triangle, noise and DMC outputs: the spec gives no formula.
A free value, log 10. -/
opaque tnd : Nat → Nat → Nat → Rat

/-- The magic identifier of a saved state (R586): not given.  A free value, log 16. -/
opaque stateMagic : List Byte

/-- The version of the format of saved states (R586): not given.  A free value, log 16. -/
opaque stateVersion : Nat

/-- The version of a mapper variant's part of a saved state (R586): not given.  A free value, log 16. -/
opaque mapperVersion : Nat → Nat

end Sys2Proof.Config
end

