-- ==== Sys2Proof/Machine/State.lean ====
section
/-! DEFINITION. The state of the whole machine as plain data, the reasons a step can stop, and the state
after reset (spec/10_state.md; spec/62_ppu.md R380, R381; spec/63_apu.md R450, R451; spec/64_mappers.md).
Flags and one-bit latches are Bool, registers are bit vectors of their width, counters are Nat. -/

namespace Sys2Proof.Machine

/-- A memory: (index, byte) pairs, indices strictly rising, no pair that holds what an unlisted index
reads as, `Config.unlistedByte` (log 17).  Machine/Memory.lean reads and writes it. -/
abbrev Memory := List Host.Cell

/-- A row of the cost table: the base cost of an opcode and its page-cross penalty mark (R104, R109). -/
structure CycleRow where
  base : Nat
  penalty : Bool
  deriving DecidableEq, Repr

/-- The argument CYCLE_TABLE: (opcode, row) pairs, opcodes strictly rising, of the opcodes whose row is not
the default one of R109; `[]` is the default table (R5, R109, R620; log 12).  Machine/Timing.lean reads it. -/
abbrev CycleTable := List (Nat × CycleRow)

/-- The RAMs of the machine (R5, D17). -/
inductive Ram where
  | work
  | oam
  | palette
  | nametable
  | character
  | program
  deriving DecidableEq, Repr

/-- The argument POWER_ON_RAM: what each RAM holds after a hard reset; `[]` is its default, all 0x00 (R5, R37,
D17; log 4). -/
structure PowerOn where
  work : Memory
  oam : Memory
  palette : Memory
  nametable : Memory
  character : Memory
  program : Memory
  deriving DecidableEq, Repr

/-- The argument DMA_LENGTH: the parity rule of R352, its default, or one of the two lengths (log 13). -/
inductive DmaLength where
  | parity
  | always513
  | always514
  deriving DecidableEq, Repr

/-- What a soft reset does to OAM, palette RAM and the frame buffer, on which the rules disagree (DESIGN CHOICE,
log 9). -/
inductive SoftReset where
  /-- They stay as they are (R37, R600, R603). -/
  | keepsPicture
  /-- They are zeroed (R381). -/
  | clearsPicture
  deriving DecidableEq, Repr

/-- What a machine is given when it is constructed and nothing in it changes: the open parameters that are plain
data, and the reading of a soft reset (R5; logs 4, 9, 12, 13). -/
structure Arguments where
  cycleTable : CycleTable
  powerOn : PowerOn
  dmaLength : DmaLength
  softReset : SoftReset
  deriving DecidableEq, Repr

/-- One controller port (R28): the buttons now held and the shift register. -/
structure Port where
  current : Byte
  latched : Byte
  deriving DecidableEq, Repr

/-- The picture unit, field by field (R380).  `incr32`, `sprTable1`, `bgTable1` and `tallSprites` are the
two-valued fields `vramIncrement`, `sprPatternBase`, `bgPatternBase` and `spriteHeight` (log 29). -/
structure Ppu where
  v : BitVec 15
  t : BitVec 15
  fineX : BitVec 3
  w : Bool
  dot : Nat
  scanline : Nat
  oddFrame : Bool
  vblank : Bool
  spriteZeroHit : Bool
  spriteOverflow : Bool
  incr32 : Bool
  sprTable1 : Bool
  bgTable1 : Bool
  tallSprites : Bool
  slaveSelect : Bool
  nmiEnable : Bool
  greyscale : Bool
  bgLeft : Bool
  sprLeft : Bool
  bgEnable : Bool
  sprEnable : Bool
  emphasis : BitVec 3
  oamAddr : Byte
  readBuffer : Byte
  oam : Memory
  palette : Memory
  secOam : Memory
  sprTileLo : Memory
  sprTileHi : Memory
  spriteCount : Nat
  spriteZeroIn : Bool
  tileLo : BitVec 16
  tileHi : BitVec 16
  attrLeft : BitVec 2
  attrRight : BitVec 2
  /-- Output pixels by index `scanline * 256 + dot`; an unlisted pixel is 0. -/
  frameBuffer : List (Nat × BitVec 9)
  deriving DecidableEq, Repr

/-- The envelope of a pulse or noise channel (R450, R464); `halt` also stops the length counter. -/
structure Envelope where
  halt : Bool
  constVol : Bool
  volume : BitVec 4
  decay : BitVec 4
  envCounter : BitVec 4
  envStart : Bool
  deriving DecidableEq, Repr

/-- A pulse channel (R450). -/
structure Pulse where
  enable : Bool
  timer : BitVec 11
  timerValue : Nat
  duty : BitVec 2
  dutyIndex : BitVec 3
  length : Nat
  env : Envelope
  sweepEnable : Bool
  sweepPeriod : BitVec 3
  sweepNegate : Bool
  sweepShift : BitVec 3
  sweepTimer : BitVec 3
  sweepReload : Bool
  sweepTarget : Int
  sweepMuting : Bool
  output : BitVec 4
  deriving DecidableEq, Repr

/-- The triangle channel (R450). -/
structure Triangle where
  enable : Bool
  timer : BitVec 11
  timerValue : Nat
  length : Nat
  halt : Bool
  linear : BitVec 7
  linearReloadValue : BitVec 7
  linearReload : Bool
  stepIndex : BitVec 5
  output : BitVec 4
  deriving DecidableEq, Repr

/-- The noise channel (R450). -/
structure Noise where
  enable : Bool
  timer : Nat
  timerValue : Nat
  length : Nat
  env : Envelope
  tonal : Bool
  shift : BitVec 15
  output : BitVec 4
  deriving DecidableEq, Repr

/-- The DMC channel (R450). -/
structure Dmc where
  irqEnable : Bool
  loop : Bool
  timer : Nat
  timerValue : Nat
  output : BitVec 7
  sampleAddress : Word
  sampleLength : Nat
  address : Word
  bytesLeft : Nat
  sample : Byte
  sampleEmpty : Bool
  shifter : Byte
  bitsLeft : Nat
  silent : Bool
  deriving DecidableEq, Repr

/-- One written cell of the sample buffer: the five arguments of MIX (R455, R505).
DESIGN CHOICE, safe, log 10: the cell keeps the arguments and the value of MIX is taken when the host
reads the buffer, so that the state stays plain data that can be evaluated. -/
structure Sample where
  p1 : BitVec 4
  p2 : BitVec 4
  tri : BitVec 4
  noise : BitVec 4
  dmc : BitVec 7
  deriving DecidableEq, Repr

/-- The audio unit (R450). -/
structure Apu where
  frameCounter : Nat
  step5Mode : Bool
  irqInhibit : Bool
  frameIrq : Bool
  dmcIrq : Bool
  p1 : Pulse
  p2 : Pulse
  tri : Triangle
  noise : Noise
  dmc : Dmc
  /-- Written cells, the highest index first: the key of index `k` is `29780 - k`. -/
  samples : List (Nat × Sample)
  sampleOffset : Nat
  deriving DecidableEq, Repr

/-- The header of a cartridge image, immutable (R33, R520). -/
structure Header where
  prgBanks : Nat
  chrBanks : Nat
  verticalMirroring : Bool
  battery : Bool
  trainer : Bool
  fourScreen : Bool
  mapperId : Byte
  deriving DecidableEq, Repr

/-- Registers of variant B, the 5-bit shift register (R535). -/
structure RegsB where
  shiftReg : BitVec 5
  shiftCount : Nat
  mirroring : BitVec 2
  prgMode : BitVec 2
  chrMode : Bool
  chrBank0 : BitVec 5
  chrBank1 : BitVec 5
  prgBank : BitVec 4
  ramDisable : Bool
  deriving DecidableEq, Repr

/-- Registers of variant D, the scanline counter (R555).  `bankReg` holds the eight bank registers by
number. -/
structure RegsD where
  bankReg : Memory
  regSelect : BitVec 3
  prgMode : Bool
  chrMode : Bool
  mirroring : Bool
  irqLatch : Byte
  irqCounter : Byte
  irqReload : Bool
  irqEnable : Bool
  mapperIrq : Bool
  lastA12 : Bool
  deriving DecidableEq, Repr

/-- The registers of the variant in the cartridge: which constructor it is says which variant (R528). -/
inductive MapperRegs where
  /-- Variant A, mapper 0: no register (R530). -/
  | variantA
  /-- Variant B, mapper 1 (R535). -/
  | variantB (r : RegsB)
  /-- Variant C, mapper 2: the program bank (R545). -/
  | variantC (prgBank : Byte)
  /-- The character-select-only variant, mapper 3: the character bank (R549). -/
  | cnrom (chrBank : Byte)
  /-- Variant D, mapper 4 (R555). -/
  | variantD (r : RegsD)
  /-- Variant E, mapper 7: the program bank and the nametable page (R565). -/
  | variantE (prgBank : BitVec 4) (ntPage : Bool)
  deriving DecidableEq, Repr

/-- A loaded cartridge: the image (`rom[0..]` by offset, and its size), its header, the three RAMs and
the mapper's registers (R32, R520 to R527; log 15). -/
structure Cartridge where
  header : Header
  image : Memory
  size : Nat
  prgRam : Memory
  chrRam : Memory
  ntRam : Memory
  regs : MapperRegs
  deriving DecidableEq, Repr

/-- The state of the whole machine (spec/10_state.md). -/
structure State where
  /-- Accumulator A (R20). -/
  a : Byte
  /-- Index register X (R21). -/
  x : Byte
  /-- Index register Y (R21). -/
  y : Byte
  /-- Stack pointer S (R22). -/
  sp : Byte
  /-- Program counter (R26). -/
  pc : Word
  /-- Carry (R23). -/
  flagC : Bool
  /-- Zero (R23). -/
  flagZ : Bool
  /-- Interrupt-disable (R23). -/
  flagI : Bool
  /-- Decimal, stored only (R23). -/
  flagD : Bool
  /-- Overflow (R23). -/
  flagV : Bool
  /-- Negative (R23). -/
  flagN : Bool
  /-- Non-maskable interrupt latch (R24). -/
  nmiPending : Bool
  /-- Maskable interrupt level (R24). -/
  irqPending : Bool
  /-- Cycles left of the instruction in flight (R25). -/
  cyclesRemaining : Nat
  /-- Work RAM, cells 0 to 2047 (R28). -/
  ram : Memory
  /-- Controller port 1 (R28). -/
  port1 : Port
  /-- Controller port 2 (R28). -/
  port2 : Port
  /-- Controller strobe (R28). -/
  strobe : Bool
  /-- An OAM DMA transfer is in progress (R28). -/
  inDma : Bool
  /-- High byte of the DMA source (R28). -/
  dmaPage : Byte
  /-- DMA cycle counter (R28). -/
  dmaCounter : Nat
  /-- The byte read and not yet written (R28). -/
  dmaValue : Byte
  /-- Master cycles since reset (R29; log 22). -/
  masterCycle : Nat
  /-- The picture unit (R30). -/
  ppu : Ppu
  /-- The audio unit (R31). -/
  apu : Apu
  /-- The cartridge, or none (R32, R365). -/
  cart : Option Cartridge
  /-- The model's own field, not the spec's: the arguments the machine was given, which no step and no reset
  changes (R5; DESIGN CHOICE, logs 4, 9, 12, 13). -/
  args : Arguments
  deriving DecidableEq, Repr

/-- Reasons to stop with a fault: none.  No instruction and no access of this machine can fault (R307;
spec/93_implementation_defined.md section 1). -/
inductive Fault where
  deriving DecidableEq, Repr

/-- Reasons the model gives no next state.  Each is safe: nothing is claimed of a run that meets one. -/
inductive Refusal where
  /-- Raised by an arm of `exec` whose instruction has no meaning yet; safe. -/
  | notModelled (mnemonic : String)
  /-- Raised by the eight unstable opcodes, which the spec refuses (R262); safe. -/
  | unstableOpcode (opcode : Byte)
  /-- Raised by a step of a machine without a cartridge, which the spec refuses (R365, D40); safe. -/
  | noCartridge
  deriving DecidableEq, Repr

/-- What a step or the meaning of an instruction answers. -/
abbrev Result := Host.Outcome State Fault Refusal

/-- POWER_ON_RAM at its default, all 0x00 (R37). -/
def PowerOn.default : PowerOn :=
  { work := [], oam := [], palette := [], nametable := [], character := [], program := [] }

/-- Every argument at its default (R5, R109, R352). -/
def Arguments.default : Arguments :=
  { cycleTable := [], powerOn := PowerOn.default, dmaLength := .parity, softReset := .keepsPicture }

/-- Port state after reset (R37). -/
def Port.reset : Port := { current := 0#8, latched := 0#8 }

/-- The picture unit after a hard reset, its RAMs at the default of POWER_ON_RAM (R381). -/
def Ppu.reset : Ppu :=
  { v := 0#15, t := 0#15, fineX := 0#3, w := false, dot := 0, scanline := 0, oddFrame := false,
    vblank := false, spriteZeroHit := false, spriteOverflow := false, incr32 := false,
    sprTable1 := false, bgTable1 := false, tallSprites := false, slaveSelect := false,
    nmiEnable := false, greyscale := false, bgLeft := false, sprLeft := false, bgEnable := false,
    sprEnable := false, emphasis := 0#3, oamAddr := 0#8, readBuffer := 0#8, oam := [], palette := [],
    secOam := [], sprTileLo := [], sprTileHi := [], spriteCount := 0, spriteZeroIn := false,
    tileLo := 0#16, tileHi := 0#16, attrLeft := 0#2, attrRight := 0#2, frameBuffer := [] }

/-- An envelope after reset (R451). -/
def Envelope.reset : Envelope :=
  { halt := false, constVol := false, volume := 0#4, decay := 0#4, envCounter := 0#4,
    envStart := false }

/-- A pulse channel after reset: all 0 but `sweepMuting` (R451). -/
def Pulse.reset : Pulse :=
  { enable := false, timer := 0#11, timerValue := 0, duty := 0#2, dutyIndex := 0#3, length := 0,
    env := Envelope.reset, sweepEnable := false, sweepPeriod := 0#3, sweepNegate := false,
    sweepShift := 0#3, sweepTimer := 0#3, sweepReload := false, sweepTarget := 0, sweepMuting := true,
    output := 0#4 }

/-- The triangle channel after reset (R451). -/
def Triangle.reset : Triangle :=
  { enable := false, timer := 0#11, timerValue := 0, length := 0, halt := false, linear := 0#7,
    linearReloadValue := 0#7, linearReload := false, stepIndex := 0#5, output := 0#4 }

/-- The noise channel after reset: all 0 but the shift register (R451). -/
def Noise.reset : Noise :=
  { enable := false, timer := 0, timerValue := 0, length := 0, env := Envelope.reset, tonal := false,
    shift := 1#15, output := 0#4 }

/-- The DMC channel after reset (R451). -/
def Dmc.reset : Dmc :=
  { irqEnable := false, loop := false, timer := 0, timerValue := 0, output := 0#7,
    sampleAddress := 0xC000#16, sampleLength := 1, address := 0xC000#16, bytesLeft := 0, sample := 0#8,
    sampleEmpty := true, shifter := 0#8, bitsLeft := 8, silent := true }

/-- The audio unit after reset (R451). -/
def Apu.reset : Apu :=
  { frameCounter := 0, step5Mode := false, irqInhibit := false, frameIrq := false, dmcIrq := false,
    p1 := Pulse.reset, p2 := Pulse.reset, tri := Triangle.reset, noise := Noise.reset,
    dmc := Dmc.reset, samples := [], sampleOffset := 0 }

/-- The machine after power-on: every field at its hard-reset value (R36, R37, R381, R451) and no
cartridge (R605).  Without one both bytes of the reset vector read 0 (R56), so PC is 0x0000 (log 2).  Every
argument is at its default (logs 4, 9, 12, 13). -/
def State.reset : State :=
  { a := 0#8, x := 0#8, y := 0#8, sp := 0xFD#8, pc := 0x0000#16,
    flagC := false, flagZ := false, flagI := true, flagD := false, flagV := false, flagN := false,
    nmiPending := false, irqPending := false, cyclesRemaining := 7,
    ram := [], port1 := Port.reset, port2 := Port.reset, strobe := false,
    inDma := false, dmaPage := 0#8, dmaCounter := 0, dmaValue := 0#8, masterCycle := 0,
    ppu := Ppu.reset, apu := Apu.reset, cart := none, args := Arguments.default }

end Sys2Proof.Machine
end

