-- ==== Sys2Proof/Machine/Memory.lean ====
section
/-! DEFINITION. Reading and writing memories: lists of (index, value) pairs in one canonical form,
indices strictly rising and no pair that holds what an unlisted index reads as. -/

namespace Sys2Proof.Machine

/-- The value at an index; `d` where the index is not listed. -/
def Cells.read {α : Type} (d : α) : List (Nat × α) → Nat → α
  | [], _ => d
  | (j, u) :: m, k => if k = j then u else if k < j then d else Cells.read d m k

/-- Write a value at an index and keep the canonical form: writing `d` takes the pair out. -/
def Cells.write {α : Type} [DecidableEq α] (d : α) : List (Nat × α) → Nat → α → List (Nat × α)
  | [], k, x => if x = d then [] else [(k, x)]
  | (j, u) :: m, k, x =>
    if k < j then (if x = d then (j, u) :: m else (k, x) :: (j, u) :: m)
    else if k = j then (if x = d then m else (k, x) :: m)
    else (j, u) :: Cells.write d m k x

/-- Every index is above `b` and they rise strictly, and no value is `d`. -/
def Cells.wfAbove {α : Type} [DecidableEq α] (d : α) : Option Nat → List (Nat × α) → Bool
  | _, [] => true
  | none, (j, u) :: m => decide (u ≠ d) && Cells.wfAbove d (some j) m
  | some b, (j, u) :: m => decide (b < j) && decide (u ≠ d) && Cells.wfAbove d (some j) m

/-- The canonical form. -/
def Cells.wf {α : Type} [DecidableEq α] (d : α) (m : List (Nat × α)) : Bool :=
  Cells.wfAbove d none m

/-- The byte at an index; 0x00 where nothing is listed (log 17). -/
def Memory.read (m : Memory) (k : Nat) : Byte := Cells.read Config.unlistedByte m k

/-- Store one byte. -/
def Memory.write (m : Memory) (k : Nat) (x : Byte) : Memory := Cells.write Config.unlistedByte m k x

/-- The canonical form of a memory. -/
def Memory.wf (m : Memory) : Bool := Cells.wf Config.unlistedByte m

/-- The memory of a list of bytes, the first at index `k`. -/
def Memory.ofBytes : Nat → List Byte → Memory
  | _, [] => []
  | k, b :: bs =>
    if b = Config.unlistedByte then Memory.ofBytes (k + 1) bs else (k, b) :: Memory.ofBytes (k + 1) bs

/-- The part of a memory below an index. -/
def Memory.below (n : Nat) (m : Memory) : Memory := m.filter fun c => decide (c.1 < n)

/-- The bytes at `n` indices from `k` on. -/
def Memory.bytes (m : Memory) (k n : Nat) : List Byte := (List.range n).map fun j => Memory.read m (k + j)

end Sys2Proof.Machine
end

