-- ==== Sys2Proof/Machine/Apu.lean ====
section
/-! DEFINITION. The audio unit: register writes, frame sequencer, the channels and the part of the DMC that
needs no bus (spec/63_apu.md).  Machine/ApuStep.lean composes the unit's step with the DMC's bus reads. -/

namespace Sys2Proof.Machine

/-! Tables. -/

/-- Length-counter load table (R472). -/
def lengthTable : List Nat :=
  [10, 254, 20, 2, 40, 4, 80, 6, 160, 8, 60, 10, 14, 12, 26, 14,
   12, 16, 24, 18, 48, 20, 96, 22, 192, 24, 72, 26, 16, 28, 32, 30]

/-- `LENGTH[x[7:3]]` of a written byte (R470, R472). -/
def lengthOf (x : Byte) : Nat := lengthTable.getD (x.toNat / 8) 0

/-- The eight steps of a duty setting (R471). -/
def dutyTable (duty : BitVec 2) : List Bool :=
  if duty = 0#2 then [false, true, false, false, false, false, false, false]
  else if duty = 1#2 then [false, true, true, false, false, false, false, false]
  else if duty = 2#2 then [false, true, true, true, true, false, false, false]
  else [true, false, false, true, true, true, true, true]

/-- The triangle's 32 steps: 15 down to 0, then 0 up to 15 (R481). -/
def triangleLevel (k : BitVec 5) : BitVec 4 :=
  if k.toNat < 16 then BitVec.ofNat 4 (15 - k.toNat) else BitVec.ofNat 4 (k.toNat - 16)

/-- Noise periods in processor cycles (R486). -/
def noisePeriodTable : List Nat :=
  [4, 8, 16, 32, 64, 96, 128, 160, 202, 254, 380, 508, 762, 1016, 2034, 4068]

/-- DMC rates, processor cycles per output bit (R491). -/
def dmcRateTable : List Nat :=
  [428, 380, 340, 320, 286, 254, 226, 214, 190, 160, 142, 128, 106, 84, 72, 54]

/-! Envelope (R464). -/

/-- One quarter-frame clock of an envelope. -/
def Envelope.clock (e : Envelope) : Envelope :=
  if e.envStart then { e with envStart := false, decay := 15#4, envCounter := e.volume }
  else if e.envCounter ≠ 0#4 then { e with envCounter := e.envCounter - 1#4 }
  else
    { e with
      envCounter := e.volume
      decay := if e.decay ≠ 0#4 then e.decay - 1#4 else if e.halt then 15#4 else e.decay }

/-- The envelope's output level. -/
def Envelope.level (e : Envelope) : BitVec 4 := if e.constVol then e.volume else e.decay

/-- One half-frame clock of a length counter (R463). -/
def clockLength (halt : Bool) (length : Nat) : Nat :=
  if !halt && length != 0 then length - 1 else length

/-! Pulse channels. -/

/-- Recompute the sweep target and the muting; `first` is pulse 1, which subtracts one more (R465). -/
def Pulse.updateSweep (first : Bool) (p : Pulse) : Pulse :=
  let shifted : Int := (p.timer.toNat >>> p.sweepShift.toNat : Nat)
  let change : Int := if p.sweepNegate then (if first then -shifted - 1 else -shifted) else shifted
  let target : Int := (p.timer.toNat : Int) + change
  { p with sweepTarget := target, sweepMuting := decide (target > 0x7FF) || decide (p.timer.toNat < 8) }

/-- Write to one of the four registers of a pulse channel (R470).  DEDUCED, unsafe, log 31: in the cell of
register 3 the `if` on the enable bit covers the length load alone, not `envStart`. -/
def Pulse.write (first : Bool) (p : Pulse) (r : BitVec 2) (x : Byte) : Pulse :=
  if r = 0#2 then
    { p with
      duty := x.extractLsb' 6 2
      env := { p.env with halt := x.getLsbD 5, constVol := x.getLsbD 4, volume := x.extractLsb' 0 4 } }
  else if r = 1#2 then
    Pulse.updateSweep first
      { p with
        sweepEnable := x.getLsbD 7, sweepPeriod := x.extractLsb' 4 3, sweepNegate := x.getLsbD 3
        sweepShift := x.extractLsb' 0 3, sweepReload := true }
  else if r = 2#2 then
    Pulse.updateSweep first { p with timer := (p.timer &&& 0x700#11) ||| x.setWidth 11 }
  else
    Pulse.updateSweep first
      { p with
        timer := (p.timer &&& 0x0FF#11) ||| ((x &&& 7#8).setWidth 11 <<< 8)
        dutyIndex := 0#3
        length := if p.enable then lengthOf x else p.length
        env := { p.env with envStart := true } }

/-- The sweep part of a half-frame clock (R463; the target stored in 11 bits: log 23). -/
def Pulse.clockSweep (first : Bool) (p : Pulse) : Pulse :=
  let q :=
    if p.sweepTimer = 0#3 ∧ p.sweepEnable ∧ p.sweepMuting = false ∧ p.sweepShift ≠ 0#3 then
      Pulse.updateSweep first { p with timer := BitVec.ofInt 11 p.sweepTarget }
    else p
  if q.sweepTimer = 0#3 ∨ q.sweepReload then { q with sweepTimer := q.sweepPeriod, sweepReload := false }
  else { q with sweepTimer := q.sweepTimer - 1#3 }

/-- One processor cycle of a pulse channel (R471). -/
def Pulse.step (p : Pulse) : Pulse :=
  let q :=
    if p.timerValue ≠ 0 then { p with timerValue := p.timerValue - 1 }
    else { p with timerValue := p.timer.toNat * 2 + 1, dutyIndex := p.dutyIndex + 1#3 }
  let bit := (dutyTable q.duty).getD q.dutyIndex.toNat false
  { q with output := if !bit || q.sweepMuting || q.length == 0 then 0#4 else q.env.level }

/-! Triangle channel. -/

/-- Write to one of the four registers of the triangle channel (R480).  DEDUCED, unsafe, log 31: in the cell of
register 3 the `if` on the enable bit covers the length load alone, not `linearReload`. -/
def Triangle.write (c : Triangle) (r : BitVec 2) (x : Byte) : Triangle :=
  if r = 0#2 then { c with halt := x.getLsbD 7, linearReloadValue := x.extractLsb' 0 7 }
  else if r = 1#2 then c
  else if r = 2#2 then { c with timer := (c.timer &&& 0x700#11) ||| x.setWidth 11 }
  else
    { c with
      timer := (c.timer &&& 0x0FF#11) ||| ((x &&& 7#8).setWidth 11 <<< 8)
      length := if c.enable then lengthOf x else c.length
      linearReload := true }

/-- The linear counter's part of a quarter-frame clock (R462). -/
def Triangle.clockLinear (c : Triangle) : Triangle :=
  { c with
    linear :=
      if c.linearReload then c.linearReloadValue
      else if c.linear ≠ 0#7 then c.linear - 1#7 else c.linear
    linearReload := c.linearReload && c.halt }

/-- One processor cycle of the triangle channel (R481). -/
def Triangle.step (c : Triangle) : Triangle :=
  if c.timerValue ≠ 0 then { c with timerValue := c.timerValue - 1 }
  else
    let q := { c with timerValue := c.timer.toNat }
    if c.length ≠ 0 ∧ c.linear ≠ 0#7 then
      { q with output := triangleLevel c.stepIndex, stepIndex := c.stepIndex + 1#5 }
    else q

/-! Noise channel. -/

/-- Write to one of the four registers of the noise channel (R485).  DEDUCED, unsafe, log 31: in the cell of
register 3 the `if` on the enable bit covers the length load alone, not `envStart`. -/
def Noise.write (c : Noise) (r : BitVec 2) (x : Byte) : Noise :=
  if r = 0#2 then
    { c with
      env := { c.env with halt := x.getLsbD 5, constVol := x.getLsbD 4, volume := x.extractLsb' 0 4 } }
  else if r = 1#2 then c
  else if r = 2#2 then
    { c with tonal := x.getLsbD 7, timer := noisePeriodTable.getD (x.toNat % 16) 0 - 1 }
  else
    { c with
      length := if c.enable then lengthOf x else c.length
      env := { c.env with envStart := true } }

/-- One shift of the linear-feedback register (R487). -/
def noiseShift (tonal : Bool) (r : BitVec 15) : BitVec 15 :=
  let fb := r.getLsbD 0 ^^ (if tonal then r.getLsbD 6 else r.getLsbD 1)
  (r >>> 1) ||| (if fb then 0x4000#15 else 0#15)

/-- One processor cycle of the noise channel (R487). -/
def Noise.step (c : Noise) : Noise :=
  let q :=
    if c.timerValue ≠ 0 then { c with timerValue := c.timerValue - 1 }
    else { c with timerValue := c.timer, shift := noiseShift c.tonal c.shift }
  { q with output := if q.length == 0 || q.shift.getLsbD 0 then 0#4 else q.env.level }

/-! DMC channel. -/

/-- Write to 0x4011, 0x4012 or 0x4013, and the channel's part of a write to 0x4010 (R490). -/
def Dmc.write (c : Dmc) (r : BitVec 2) (x : Byte) : Dmc :=
  if r = 0#2 then
    { c with
      irqEnable := x.getLsbD 7, loop := x.getLsbD 6, timer := dmcRateTable.getD (x.toNat % 16) 0 - 1 }
  else if r = 1#2 then { c with output := x.extractLsb' 0 7 }
  else if r = 2#2 then { c with sampleAddress := 0xC000#16 ||| (x.setWidth 16 <<< 6) }
  else { c with sampleLength := x.toNat * 16 + 1 }

/-- The level after one output bit: two up or down, skipped where it would leave 0 to 127 (R492). -/
def dmcLevel (bit : Bool) (level : BitVec 7) : BitVec 7 :=
  if bit then (if level.toNat ≤ 125 then level + 2#7 else level)
  else (if 2 ≤ level.toNat then level - 2#7 else level)

/-- The output unit, one processor cycle (R492). -/
def Dmc.stepOutput (c : Dmc) : Dmc :=
  if c.timerValue ≠ 0 then { c with timerValue := c.timerValue - 1 }
  else
    let q :=
      { c with
        timerValue := c.timer
        output := if c.silent then c.output else dmcLevel (c.shifter.getLsbD 0) c.output
        shifter := c.shifter >>> 1
        bitsLeft := c.bitsLeft - 1 }
    if q.bitsLeft = 0 then
      (if q.sampleEmpty then { q with bitsLeft := 8, silent := true }
       else { q with bitsLeft := 8, silent := false, shifter := q.sample, sampleEmpty := true })
    else q

/-- The memory reader wants a byte (R493). -/
def Dmc.wantsByte (c : Dmc) : Bool := decide (0 < c.bytesLeft) && c.sampleEmpty

/-- The memory reader after it fetched a byte: cursor, count, loop (R493). -/
def Dmc.takeByte (c : Dmc) (b : Byte) : Dmc :=
  let q :=
    { c with
      sampleEmpty := false
      sample := b
      address := if c.address = 0xFFFF#16 then 0x8000#16 else c.address + 1#16
      bytesLeft := c.bytesLeft - 1 }
  if q.bytesLeft = 0 ∧ q.loop then { q with bytesLeft := q.sampleLength, address := q.sampleAddress } else q

/-- The sample ended without looping and with its interrupt enabled (R493). -/
def Dmc.endsWithIrq (c : Dmc) : Bool := c.bytesLeft == 1 && !c.loop && c.irqEnable

/-! The whole unit. -/

/-- Quarter-frame clock (R462). -/
def Apu.clockQuarter (u : Apu) : Apu :=
  { u with
    tri := u.tri.clockLinear
    p1 := { u.p1 with env := u.p1.env.clock }
    p2 := { u.p2 with env := u.p2.env.clock }
    noise := { u.noise with env := u.noise.env.clock } }

/-- Half-frame clock: length counters, then sweeps (R463). -/
def Apu.clockHalf (u : Apu) : Apu :=
  { u with
    p1 := Pulse.clockSweep true { u.p1 with length := clockLength u.p1.env.halt u.p1.length }
    p2 := Pulse.clockSweep false { u.p2 with length := clockLength u.p2.env.halt u.p2.length }
    tri := { u.tri with length := clockLength u.tri.halt u.tri.length }
    noise := { u.noise with length := clockLength u.noise.env.halt u.noise.length } }

/-- The frame sequencer's counter (R455). -/
def Apu.countFrame (u : Apu) : Apu :=
  let c := if (u.frameCounter = 29830 ∧ u.step5Mode = false) ∨ u.frameCounter = 37282 then 0 else u.frameCounter
  { u with frameCounter := c + 1 }

/-- The frame sequencer's events at its counter's value (R460). -/
def Apu.frameEvents (u : Apu) : Apu :=
  if u.frameCounter = 7457 ∨ u.frameCounter = 22371 then u.clockQuarter
  else if u.frameCounter = 14913 then u.clockQuarter.clockHalf
  else if u.frameCounter = 29829 ∧ u.step5Mode = false then
    let q := u.clockQuarter.clockHalf
    { q with frameIrq := q.frameIrq || !u.irqInhibit }
  else if u.frameCounter = 37281 then u.clockQuarter.clockHalf
  else u

/-- The steps of the channels up to the DMC's output unit (R455). -/
def Apu.stepChannels (u : Apu) : Apu :=
  let q := u.countFrame.frameEvents
  { q with
    tri := q.tri.step
    p1 := q.p1.step
    p2 := q.p2.step
    noise := q.noise.step
    dmc := q.dmc.stepOutput }

/-- The DMC takes the byte read for it, and raises its interrupt at the sample's end (R493). -/
def Apu.takeDmcByte (u : Apu) (b : Byte) : Apu :=
  { u with dmc := u.dmc.takeByte b, dmcIrq := u.dmcIrq || u.dmc.endsWithIrq }

/-- The five channel outputs now, the arguments of MIX (R455). -/
def Apu.mixInputs (u : Apu) : Sample :=
  { p1 := u.p1.output, p2 := u.p2.output, tri := u.tri.output, noise := u.noise.output,
    dmc := u.dmc.output }

/-- The value of MIX for a sample's arguments (R505): a free value of Config. -/
def Sample.mix (x : Sample) : Rat :=
  Config.pulse (x.p1.toNat + x.p2.toNat) + Config.tnd x.tri.toNat x.noise.toNat x.dmc.toNat

/-- The last index of the sample buffer (R456). -/
def lastSample : Nat := 29780

/-- Put a sample at an index of the buffer; the list keeps the highest index first (R456). -/
def writeSample : List (Nat × Sample) → Nat → Sample → List (Nat × Sample)
  | [], k, x => [(lastSample - k, x)]
  | (j, u) :: m, k, x =>
    if lastSample - k < j then (lastSample - k, x) :: (j, u) :: m
    else if lastSample - k = j then (lastSample - k, x) :: m
    else (j, u) :: writeSample m k x

/-- The sample at an index of the buffer, if one was written (R456). -/
def readSample : List (Nat × Sample) → Nat → Option Sample
  | [], _ => none
  | (j, u) :: m, k => if lastSample - k = j then some u else readSample m k

/-- Append the sample of this cycle; when the buffer is full its last slot is overwritten (R456). -/
def Apu.appendSample (u : Apu) : Apu :=
  { u with
    samples := writeSample u.samples u.sampleOffset u.mixInputs
    sampleOffset := if u.sampleOffset + 1 = lastSample + 1 then lastSample else u.sampleOffset + 1 }

/-- Write to 0x4017 (R461). -/
def Apu.writeFrame (u : Apu) (x : Byte) : Apu :=
  let q :=
    { u with
      step5Mode := x.getLsbD 7, irqInhibit := x.getLsbD 6
      frameIrq := u.frameIrq && !x.getLsbD 6, frameCounter := 0 }
  if x.getLsbD 7 then q.clockQuarter.clockHalf else q

/-- Write to 0x4010 to 0x4013 (R490): clearing the interrupt enable clears the flag. -/
def Apu.writeDmc (u : Apu) (r : BitVec 2) (x : Byte) : Apu :=
  { u with dmc := u.dmc.write r x, dmcIrq := u.dmcIrq && !(r == 0#2 && !x.getLsbD 7) }

/-- Write to 0x4015 (R500). -/
def Apu.writeEnable (u : Apu) (x : Byte) : Apu :=
  let keep (on : Bool) (n : Nat) : Nat := if on then n else 0
  { u with
    p1 := { u.p1 with enable := x.getLsbD 0, length := keep (x.getLsbD 0) u.p1.length }
    p2 := { u.p2 with enable := x.getLsbD 1, length := keep (x.getLsbD 1) u.p2.length }
    tri := { u.tri with enable := x.getLsbD 2, length := keep (x.getLsbD 2) u.tri.length }
    noise := { u.noise with enable := x.getLsbD 3, length := keep (x.getLsbD 3) u.noise.length }
    dmc :=
      if x.getLsbD 4 then
        (if u.dmc.bytesLeft = 0 then
          { u.dmc with bytesLeft := u.dmc.sampleLength, address := u.dmc.sampleAddress }
         else u.dmc)
      else { u.dmc with bytesLeft := 0 }
    dmcIrq := false }

/-- The status byte of 0x4015 (R501). -/
def Apu.status (u : Apu) : Byte :=
  let bit (on : Bool) (m : Byte) : Byte := if on then m else 0#8
  bit (u.p1.length != 0) 0x01#8 ||| bit (u.p2.length != 0) 0x02#8 ||| bit (u.tri.length != 0) 0x04#8 |||
    bit (u.noise.length != 0) 0x08#8 ||| bit (u.dmc.bytesLeft != 0) 0x10#8 |||
    bit u.frameIrq 0x40#8 ||| bit u.dmcIrq 0x80#8

end Sys2Proof.Machine
end

