-- ==== Sys2Proof/Machine/Flags.lean ====
section
/-! DEFINITION. The status flags and the arithmetic that computes them: `setZN`, the pushed status byte, the
adder, the comparison, the shifts (spec/00_scope.md R8; spec/42_logic_arith_compare.md R160;
spec/43_shift_incdec.md R180). -/

namespace Sys2Proof.Machine

/-- Zero and negative from a result byte (R8 `setZN`). -/
def setZN (r : Byte) (s : State) : State := { s with flagZ := r == 0#8, flagN := r.getLsbD 7 }

/-- The status byte `{N, V, 1, b, D, I, Z, C}` (R8 `packP`). -/
def packP (b : Bool) (s : State) : Byte :=
  (if s.flagN then 0x80#8 else 0#8) ||| (if s.flagV then 0x40#8 else 0#8) ||| 0x20#8 |||
    (if b then 0x10#8 else 0#8) ||| (if s.flagD then 0x08#8 else 0#8) |||
    (if s.flagI then 0x04#8 else 0#8) ||| (if s.flagZ then 0x02#8 else 0#8) |||
    (if s.flagC then 0x01#8 else 0#8)

/-- All six flags from a status byte; bits 5 and 4 are ignored (R8 `unpackP`). -/
def unpackP (p : Byte) (s : State) : State :=
  { s with flagN := p.getLsbD 7, flagV := p.getLsbD 6, flagD := p.getLsbD 3, flagI := p.getLsbD 2,
           flagZ := p.getLsbD 1, flagC := p.getLsbD 0 }

/-- Carry as a number. -/
def carryNat (c : Bool) : Nat := if c then 1 else 0

/-- The 9-bit sum of the adder (R160). -/
def adcSum (a m : Byte) (c : Bool) : Nat := a.toNat + m.toNat + carryNat c

/-- Sign-bit divergence: both inputs have the sign the result lacks (R160). -/
def signDiverges (a m r : Byte) : Bool := ((a ^^^ r) &&& (m ^^^ r)).getLsbD 7

/-- `adc(m)`: add with carry into A, binary whatever the decimal flag says (R160). -/
def adcInto (m : Byte) (s : State) : State :=
  let sum := adcSum s.a m s.flagC
  let r : Byte := BitVec.ofNat 8 sum
  setZN r { s with a := r, flagC := decide (0xFF < sum), flagV := signDiverges s.a m r }

/-- `sbc(m)`: the adder on the ones' complement (R160). -/
def sbcInto (m : Byte) (s : State) : State := adcInto (m ^^^ 0xFF#8) s

/-- `compare(r, m)` (R160). -/
def compareWith (r m : Byte) (s : State) : State :=
  { s with flagC := decide (m.toNat ≤ r.toNat), flagZ := r == m, flagN := (r - m).getLsbD 7 }

/-- A shifted byte and the carry it leaves (R180). -/
structure Shifted where
  result : Byte
  carry : Bool
  deriving DecidableEq, Repr

/-- `asl` (R180). -/
def aslByte (x : Byte) (_ : Bool) : Shifted := { result := x <<< 1, carry := x.getLsbD 7 }

/-- `lsr` (R180). -/
def lsrByte (x : Byte) (_ : Bool) : Shifted := { result := x >>> 1, carry := x.getLsbD 0 }

/-- `rol`: the old carry enters bit 0 (R180). -/
def rolByte (x : Byte) (c : Bool) : Shifted :=
  { result := (x <<< 1) ||| (if c then 0x01#8 else 0#8), carry := x.getLsbD 7 }

/-- `ror`: the old carry enters bit 7 (R180). -/
def rorByte (x : Byte) (c : Bool) : Shifted :=
  { result := (x >>> 1) ||| (if c then 0x80#8 else 0#8), carry := x.getLsbD 0 }

/-- `inc`, which leaves the carry as it was (R180, R185). -/
def incByte (x : Byte) (c : Bool) : Shifted := { result := x + 1#8, carry := c }

/-- `dec`, which leaves the carry as it was (R180, R186). -/
def decByte (x : Byte) (c : Bool) : Shifted := { result := x - 1#8, carry := c }

end Sys2Proof.Machine
end

