-- ==== Sys2Proof/Machine/Mapper.lean ====
section
/-! DEFINITION. The cartridge header and the six mapper variants: CPU-bus and picture-bus accesses, bank
mapping, nametable mirroring, the scanline counter of variant D, reset (spec/64_mappers.md). -/

namespace Sys2Proof.Machine

/-! Header-derived constants (R521). -/

/-- Offset of the program data in the image: after the header and a 512-byte trainer, if flagged. -/
def Header.prgBase (h : Header) : Nat := 16 + (if h.trainer then 512 else 0)

/-- Offset of the character data in the image. -/
def Header.chrBase (h : Header) : Nat := h.prgBase + 0x4000 * h.prgBanks

/-- Mask of a program offset. -/
def Header.prgMask (h : Header) : Nat := 0x4000 * h.prgBanks - 1

/-- Mask of a character offset. -/
def Header.chrMask (h : Header) : Nat := if h.chrBanks = 0 then 0x1FFF else 0x2000 * h.chrBanks - 1

/-- Program byte at an offset, reduced by the mask (R521, R570). -/
def Cartridge.prgRom (c : Cartridge) (o : Nat) : Byte :=
  Memory.read c.image (c.header.prgBase + (o &&& c.header.prgMask))

/-- Nametable RAM of a header: 4 KB when four-screen, else 2 KB (R524). -/
def Header.ntSize (h : Header) : Nat := if h.fourScreen then 0x1000 else 0x800

/-! Program banking. -/

/-- The offset variant B selects for a CPU address from 0x8000 on (R536). -/
def RegsB.prgOffset (r : RegsB) (banks : Nat) (a : Word) : Nat :=
  if r.prgMode.toNat < 2 then 0x8000 * (r.prgBank.toNat / 2) + a.toNat % 0x8000
  else if r.prgMode = 2#2 then
    (if a.toNat < 0xC000 then a.toNat % 0x4000 else 0x4000 * r.prgBank.toNat + a.toNat % 0x4000)
  else
    (if a.toNat < 0xC000 then 0x4000 * r.prgBank.toNat + a.toNat % 0x4000
     else 0x4000 * (banks - 1) + a.toNat % 0x4000)

/-- The 8 KB bank variant D shows at a CPU address from 0x8000 on (R556). -/
def RegsD.prgBank (r : RegsD) (banks : Nat) (a : Word) : Nat :=
  let l := 2 * banks
  let b6 := (Memory.read r.bankReg 6).toNat
  if a.toNat < 0xA000 then (if r.prgMode then l - 2 else b6)
  else if a.toNat < 0xC000 then (Memory.read r.bankReg 7).toNat
  else if a.toNat < 0xE000 then (if r.prgMode then b6 else l - 2)
  else l - 1

/-- The program offset of a CPU address from 0x8000 on, before the mask
(R530, R536, R545, R549, R556, R565). -/
def Cartridge.prgOffset (c : Cartridge) (a : Word) : Nat :=
  match c.regs with
  | .variantA => a.toNat % 0x8000
  | .variantB r => r.prgOffset c.header.prgBanks a
  | .variantC prgBank =>
    if a.toNat < 0xC000 then 0x4000 * prgBank.toNat + a.toNat % 0x4000
    else 0x4000 * (c.header.prgBanks - 1) + a.toNat % 0x4000
  | .cnrom _ => a.toNat % 0x8000
  | .variantD r => 0x2000 * r.prgBank c.header.prgBanks a + a.toNat % 0x2000
  | .variantE prgBank _ => 0x8000 * prgBank.toNat + a.toNat % 0x8000

/-- The variant has program RAM at 0x6000 to 0x7FFF (R527). -/
def MapperRegs.hasPrgRam : MapperRegs → Bool
  | .variantA | .variantB _ | .variantD _ => true
  | .variantC _ | .cnrom _ | .variantE _ _ => false

/-- The program RAM answers: present, and not disabled by variant B's register (R527, R539, R558). -/
def MapperRegs.prgRamOn : MapperRegs → Bool
  | .variantA | .variantD _ => true
  | .variantB r => !r.ramDisable
  | .variantC _ | .cnrom _ | .variantE _ _ => false

/-- CPU-bus read of the mapper, addresses from 0x4020 on; it changes nothing (R56, R61, R523, R527). -/
def Cartridge.cpuRead (c : Cartridge) (a : Word) : Byte :=
  if a.toNat < 0x6000 then 0x00#8
  else if a.toNat < 0x8000 then
    (if c.regs.prgRamOn then Memory.read c.prgRam (a.toNat % 0x2000) else 0x00#8)
  else c.prgRom (c.prgOffset a)

/-! Register writes. -/

/-- Variant B: one serial write; the fifth one loads the register its address selects (R540; conflicts C1 and
C5: log 20). -/
def RegsB.write (r : RegsB) (a : Word) (x : Byte) : RegsB :=
  if x.getLsbD 7 then { r with shiftReg := 0#5, shiftCount := 0 }
  else
    let sr := r.shiftReg ||| ((if x.getLsbD 0 then 1#5 else 0#5) <<< r.shiftCount)
    if r.shiftCount + 1 = 5 then
      let r' := { r with shiftReg := 0#5, shiftCount := 0 }
      if a.toNat < 0xA000 then
        { r' with mirroring := sr.extractLsb' 0 2, prgMode := sr.extractLsb' 2 2,
                  chrMode := sr.getLsbD 4 }
      else if a.toNat < 0xC000 then { r' with chrBank0 := sr }
      else if a.toNat < 0xE000 then { r' with chrBank1 := sr }
      else { r' with prgBank := sr.extractLsb' 0 4, ramDisable := sr.getLsbD 4 }
    else { r with shiftReg := sr, shiftCount := r.shiftCount + 1 }

/-- Variant D: a register write, decoded by `a & 0xE001` (R555). -/
def RegsD.write (r : RegsD) (a : Word) (x : Byte) : RegsD :=
  let odd := a.getLsbD 0
  if a.toNat < 0xA000 then
    (if odd then { r with bankReg := Memory.write r.bankReg r.regSelect.toNat x }
     else { r with regSelect := x.extractLsb' 0 3, prgMode := x.getLsbD 6, chrMode := x.getLsbD 7 })
  else if a.toNat < 0xC000 then (if odd then r else { r with mirroring := x.getLsbD 0 })
  else if a.toNat < 0xE000 then (if odd then { r with irqReload := true } else { r with irqLatch := x })
  else if odd then { r with irqEnable := true }
  else { r with irqEnable := false, mapperIrq := false }

/-- A write to 0x8000 or above: a register of the variant, or nothing (R529). -/
def MapperRegs.write (m : MapperRegs) (a : Word) (x : Byte) : MapperRegs :=
  match m with
  | .variantA => .variantA
  | .variantB r => .variantB (r.write a x)
  | .variantC _ => .variantC x
  | .cnrom _ => .cnrom x
  | .variantD r => .variantD (r.write a x)
  | .variantE _ _ => .variantE (x.extractLsb' 0 4) (x.getLsbD 4)

/-- CPU-bus write of the mapper, addresses from 0x4020 on (R527, R529). -/
def Cartridge.cpuWrite (c : Cartridge) (a : Word) (x : Byte) : Cartridge :=
  if a.toNat < 0x6000 then c
  else if a.toNat < 0x8000 then
    (if c.regs.prgRamOn then { c with prgRam := Memory.write c.prgRam (a.toNat % 0x2000) x } else c)
  else { c with regs := c.regs.write a x }

/-! Nametables (R525). -/

/-- The five mirroring modes. -/
inductive Mirroring where
  | horizontal
  | vertical
  | oneScreenA
  | oneScreenB
  | fourScreen
  deriving DecidableEq, Repr

/-- The mirroring mode of the header's flag. -/
def Header.mirroring (h : Header) : Mirroring := if h.verticalMirroring then .vertical else .horizontal

/-- The mode in force: four-screen whenever the header says so, else the header's flag or the variant's
register (R525, R538, R558, R565). -/
def Cartridge.mirroring (c : Cartridge) : Mirroring :=
  if c.header.fourScreen then .fourScreen
  else
    match c.regs with
    | .variantA | .variantC _ | .cnrom _ => c.header.mirroring
    | .variantB r =>
      if r.mirroring = 0#2 then .oneScreenA
      else if r.mirroring = 1#2 then .oneScreenB
      else if r.mirroring = 2#2 then .vertical
      else .horizontal
    | .variantD r => if r.mirroring then .horizontal else .vertical
    | .variantE _ ntPage => if ntPage then .oneScreenB else .oneScreenA

/-- The nametable cell of a picture-bus address from 0x2000 on (R525). -/
def ntIndex (m : Mirroring) (a : BitVec 14) : Nat :=
  let n : BitVec 12 := a.extractLsb' 0 12
  match m with
  | .horizontal => ((n &&& 0x3FF#12) ||| ((n &&& 0x800#12) >>> 1)).toNat
  | .vertical => (n &&& 0x7FF#12).toNat
  | .oneScreenA => (n &&& 0x3FF#12).toNat
  | .oneScreenB => (0x400#12 ||| (n &&& 0x3FF#12)).toNat
  | .fourScreen => n.toNat

/-! Pattern memory. -/

/-- Variant D's character offset (R557). -/
def RegsD.chrOffset (r : RegsD) (a : BitVec 14) : Nat :=
  let b := if r.chrMode then a ^^^ 0x1000#14 else a
  let bank (k : Nat) : Nat := (Memory.read r.bankReg k).toNat
  if b.toNat < 0x0800 then 0x0800 * (bank 0 / 2) + b.toNat % 0x0800
  else if b.toNat < 0x1000 then 0x0800 * (bank 1 / 2) + b.toNat % 0x0800
  else if b.toNat < 0x1400 then 0x0400 * bank 2 + b.toNat % 0x0400
  else if b.toNat < 0x1800 then 0x0400 * bank 3 + b.toNat % 0x0400
  else if b.toNat < 0x1C00 then 0x0400 * bank 4 + b.toNat % 0x0400
  else 0x0400 * bank 5 + b.toNat % 0x0400

/-- Variant B's character offset (R537). -/
def RegsB.chrOffset (r : RegsB) (a : BitVec 14) : Nat :=
  if r.chrMode then
    (if a.toNat < 0x1000 then 0x1000 * r.chrBank0.toNat + a.toNat % 0x1000
     else 0x1000 * r.chrBank1.toNat + a.toNat % 0x1000)
  else 0x2000 * (r.chrBank0.toNat / 2) + a.toNat % 0x2000

/-- The character offset of a picture-bus address below 0x2000, before the mask
(R526, R537, R549, R557). -/
def MapperRegs.chrOffset (m : MapperRegs) (a : BitVec 14) : Nat :=
  match m with
  | .variantA | .variantC _ | .variantE _ _ => a.toNat
  | .variantB r => r.chrOffset a
  | .cnrom chrBank => 0x2000 * chrBank.toNat + a.toNat
  | .variantD r => r.chrOffset a

/-- Pattern byte: character RAM when the header has no character bank, else ROM (R526). -/
def Cartridge.chrRead (c : Cartridge) (a : BitVec 14) : Byte :=
  if c.header.chrBanks = 0 then Memory.read c.chrRam (c.regs.chrOffset a &&& 0x1FFF)
  else Memory.read c.image (c.header.chrBase + (c.regs.chrOffset a &&& c.header.chrMask))

/-- Store to pattern memory; ROM ignores it (R526). -/
def Cartridge.chrWrite (c : Cartridge) (a : BitVec 14) (x : Byte) : Cartridge :=
  if c.header.chrBanks = 0 then
    { c with chrRam := Memory.write c.chrRam (c.regs.chrOffset a &&& 0x1FFF) x }
  else c

/-! Picture bus (R524). -/

/-- Variant D's counter, clocked by a rising edge of address line 12 between pattern reads (R560). -/
def RegsD.clockA12 (r : RegsD) (a : BitVec 14) : RegsD :=
  let cur := a.getLsbD 12
  let r' :=
    if cur && !r.lastA12 then
      let counter := if r.irqCounter = 0#8 || r.irqReload then r.irqLatch else r.irqCounter - 1#8
      let reload := if r.irqCounter = 0#8 || r.irqReload then false else r.irqReload
      { r with irqCounter := counter, irqReload := reload,
               mapperIrq := r.mapperIrq || (counter = 0#8 && r.irqEnable) }
    else r
  { r' with lastA12 := cur }

/-- What a pattern read clocks: the counter of variant D, nothing for the others (R524). -/
def MapperRegs.clockA12 (m : MapperRegs) (a : BitVec 14) : MapperRegs :=
  match m with
  | .variantD r => .variantD (r.clockA12 a)
  | m => m

/-- `ppuPeek`: the byte on the picture bus, changing nothing (R523, R524). -/
def Cartridge.picPeek (c : Cartridge) (a : BitVec 14) : Byte :=
  if a.toNat < 0x2000 then c.chrRead a else Memory.read c.ntRam (ntIndex c.mirroring a)

/-- `ppuRead`: the byte, and the cartridge after the counter of variant D was clocked (R524). -/
def Cartridge.picRead (c : Cartridge) (a : BitVec 14) : Byte × Cartridge :=
  (c.picPeek a, if a.toNat < 0x2000 then { c with regs := c.regs.clockA12 a } else c)

/-- `ppuWrite` (R524). -/
def Cartridge.picWrite (c : Cartridge) (a : BitVec 14) (x : Byte) : Cartridge :=
  if a.toNat < 0x2000 then c.chrWrite a x
  else { c with ntRam := Memory.write c.ntRam (ntIndex c.mirroring a) x }

/-- The interrupt flag of variant D, 0 for the others (R361, R560). -/
def MapperRegs.irq : MapperRegs → Bool
  | .variantD r => r.mapperIrq
  | _ => false

/-! Reset (R531, R541, R546, R550, R561, R566). -/

/-- Variant B's registers after reset (R541). -/
def RegsB.reset : RegsB :=
  { shiftReg := 0#5, shiftCount := 0, mirroring := 0#2, prgMode := 3#2, chrMode := false,
    chrBank0 := 0#5, chrBank1 := 0#5, prgBank := 0#4, ramDisable := false }

/-- Variant D's registers after reset (R561). -/
def RegsD.reset : RegsD :=
  { bankReg := [], regSelect := 0#3, prgMode := false, chrMode := false, mirroring := false,
    irqLatch := 0#8, irqCounter := 0#8, irqReload := false, irqEnable := false, mapperIrq := false,
    lastA12 := false }

/-- The registers of the same variant after its reset, hard or soft. -/
def MapperRegs.reset : MapperRegs → MapperRegs
  | .variantA => .variantA
  | .variantB _ => .variantB RegsB.reset
  | .variantC _ => .variantC 0#8
  | .cnrom _ => .cnrom 0#8
  | .variantD _ => .variantD RegsD.reset
  | .variantE _ _ => .variantE 0#4 false

/-- `mapper.reset(hard)`: a hard reset also sets the RAMs to POWER_ON_RAM, program RAM only without a battery
(R531, D17; log 4). -/
def Cartridge.reset (c : Cartridge) (p : PowerOn) (hard : Bool) : Cartridge :=
  let c' := { c with regs := c.regs.reset }
  if hard then
    { c' with
      ntRam := Memory.below c.header.ntSize p.nametable
      chrRam := p.character
      prgRam := if c.header.battery then c.prgRam else p.program }
  else c'

/-- `mapper.tick()`: nothing, for all six variants (R571). -/
def Cartridge.tick (c : Cartridge) : Cartridge := c

/-! Through the dispatcher, with or without a cartridge (R56, R365; the picture bus without one: log 8). -/

/-- CPU-bus read of the mapper region. -/
def cartRead (c : Option Cartridge) (a : Word) : Byte :=
  match c with
  | none => 0x00#8
  | some c => c.cpuRead a

/-- CPU-bus write of the mapper region. -/
def cartWrite (c : Option Cartridge) (a : Word) (x : Byte) : Option Cartridge :=
  match c with
  | none => none
  | some c => some (c.cpuWrite a x)

/-- Picture-bus read (R382). -/
def picRead (c : Option Cartridge) (a : BitVec 14) : Byte × Option Cartridge :=
  match c with
  | none => (0x00#8, none)
  | some c => ((c.picRead a).1, some (c.picRead a).2)

/-- Picture-bus write (R382). -/
def picWrite (c : Option Cartridge) (a : BitVec 14) (x : Byte) : Option Cartridge :=
  match c with
  | none => none
  | some c => some (c.picWrite a x)

/-- The mapper's interrupt flag (R361). -/
def cartIrq (c : Option Cartridge) : Bool :=
  match c with
  | none => false
  | some c => c.regs.irq

end Sys2Proof.Machine
end

