-- ==== Sys2Proof/Machine/Ppu.lean ====
section
/-! DEFINITION. The picture unit: scroll arithmetic, palette, the eight registers, and the dot-stepped
schedule (spec/62_ppu.md). -/

namespace Sys2Proof.Machine

/-- What the picture unit can reach: itself, the cartridge on the picture bus, and the CPU's NMI latch. -/
structure Pic where
  ppu : Ppu
  cart : Option Cartridge
  nmiPending : Bool
  deriving DecidableEq, Repr

/-! The two-valued fields (R380). -/

/-- `vramIncrement`: 1 or 32. -/
def Ppu.vramIncrement (p : Ppu) : BitVec 15 := if p.incr32 then 32#15 else 1#15

/-- `sprPatternBase`: 0x0000 or 0x1000. -/
def Ppu.sprPatternBase (p : Ppu) : BitVec 14 := if p.sprTable1 then 0x1000#14 else 0x0000#14

/-- `bgPatternBase`: 0x0000 or 0x1000. -/
def Ppu.bgPatternBase (p : Ppu) : BitVec 14 := if p.bgTable1 then 0x1000#14 else 0x0000#14

/-- `spriteHeight`: 8 or 16. -/
def Ppu.spriteHeight (p : Ppu) : Nat := if p.tallSprites then 16 else 8

/-- Rendering is active (R383). -/
def Ppu.rendering (p : Ppu) : Bool := p.bgEnable || p.sprEnable

/-- Rendering on a visible or the pre-render line (R383). -/
def Ppu.renderingLine (p : Ppu) : Bool := p.rendering && (decide (p.scanline < 240) || p.scanline == 261)

/-! Scroll increments (R384, R385) and reloads (R400). -/

/-- Coarse-X increment (R384). -/
def incX (v : BitVec 15) : BitVec 15 :=
  if v.extractLsb' 0 5 = 31#5 then (v &&& 0x7FE0#15) ^^^ 0x0400#15 else v + 1#15

/-- Fine-Y increment (R385). -/
def incY (v : BitVec 15) : BitVec 15 :=
  if v.extractLsb' 12 3 ≠ 7#3 then v + 0x1000#15
  else
    let v := v &&& 0x0FFF#15
    let cy := v.extractLsb' 5 5
    if cy = 29#5 then (v ^^^ 0x0800#15) &&& 0x7C1F#15
    else if cy = 31#5 then v &&& 0x7C1F#15
    else (v &&& 0x7C1F#15) ||| ((cy + 1#5).setWidth 15 <<< 5)

/-- Horizontal reload (R400). -/
def reloadX (v t : BitVec 15) : BitVec 15 := (v &&& 0x7BE0#15) ||| (t &&& 0x041F#15)

/-- Vertical reload (R400). -/
def reloadY (v t : BitVec 15) : BitVec 15 := (v &&& 0x041F#15) ||| (t &&& 0x7BE0#15)

/-! Palette RAM (R395). -/

/-- The palette cell of a picture-bus address. -/
def palIndex (a : BitVec 14) : Nat :=
  let i := a.toNat % 0x20
  if 0x10 ≤ i ∧ i % 4 = 0 then i - 0x10 else i

/-- Read a palette cell, masked by greyscale. -/
def Ppu.paletteRead (p : Ppu) (a : BitVec 14) : Byte :=
  let r := Memory.read p.palette (palIndex a)
  if p.greyscale then r &&& 0x30#8 else r

/-- Store a palette cell. -/
def Ppu.paletteWrite (p : Ppu) (a : BitVec 14) (x : Byte) : Ppu :=
  { p with palette := Memory.write p.palette (palIndex a) x }

/-! The register window (R386 to R397). -/

/-- The picture-bus address in `v` (R394). -/
def Ppu.busAddr (p : Ppu) : BitVec 14 := p.v.extractLsb' 0 14

/-- Address increment of a data-port access (R394). -/
def Ppu.advance (p : Ppu) : Ppu :=
  if p.renderingLine then { p with v := incX (incY p.v) } else { p with v := p.v + p.vramIncrement }

/-- The status byte (R389). -/
def Ppu.status (p : Ppu) : Byte :=
  (if p.vblank then 0x80#8 else 0#8) ||| (if p.spriteZeroHit then 0x40#8 else 0#8) |||
    (if p.spriteOverflow then 0x20#8 else 0#8)

/-- What a read of a register returns; `peek` (R386, R389, R391, R394, R397). -/
def Pic.peekReg (q : Pic) (r : BitVec 3) : Byte :=
  if r = 2#3 then q.ppu.status
  else if r = 4#3 then Memory.read q.ppu.oam q.ppu.oamAddr.toNat
  else if r = 7#3 then
    (if 0x3F00 ≤ q.ppu.busAddr.toNat then q.ppu.paletteRead q.ppu.busAddr else q.ppu.readBuffer)
  else 0x00#8

/-- What a read of a register changes: register 2 clears `vblank` and `w` (R389); register 7 advances
the address and refills the read buffer (R394). -/
def Pic.afterRead (q : Pic) (r : BitVec 3) : Pic :=
  if r = 2#3 then { q with ppu := { q.ppu with vblank := false, w := false } }
  else if r = 7#3 then
    let b := picRead q.cart q.ppu.busAddr
    { q with ppu := { q.ppu.advance with readBuffer := b.1 }, cart := b.2 }
  else q

/-- Register 0, control (R387, R396). -/
def Pic.writeCtrl (q : Pic) (x : Byte) : Pic :=
  let p := q.ppu
  { q with
    ppu := { p with
      t := (p.t &&& 0x73FF#15) ||| ((x &&& 0x03#8).setWidth 15 <<< 10)
      incr32 := x.getLsbD 2, sprTable1 := x.getLsbD 3, bgTable1 := x.getLsbD 4
      tallSprites := x.getLsbD 5, slaveSelect := x.getLsbD 6, nmiEnable := x.getLsbD 7 }
    nmiPending := q.nmiPending || (x.getLsbD 7 && !p.nmiEnable && p.vblank) }

/-- Register 1, mask (R388). -/
def Ppu.writeMask (p : Ppu) (x : Byte) : Ppu :=
  { p with
    greyscale := x.getLsbD 0, bgLeft := x.getLsbD 1, sprLeft := x.getLsbD 2, bgEnable := x.getLsbD 3
    sprEnable := x.getLsbD 4, emphasis := x.extractLsb' 5 3 }

/-- Register 4, OAM data (R391). -/
def Ppu.writeOam (p : Ppu) (x : Byte) : Ppu :=
  { p with oam := Memory.write p.oam p.oamAddr.toNat x, oamAddr := p.oamAddr + 1#8 }

/-- Register 5, scroll (R392). -/
def Ppu.writeScroll (p : Ppu) (x : Byte) : Ppu :=
  if p.w then
    { p with
      t := (p.t &&& 0x0C1F#15) ||| ((x &&& 7#8).setWidth 15 <<< 12) ||| ((x &&& 0xF8#8).setWidth 15 <<< 2)
      w := false }
  else
    { p with t := (p.t &&& 0x7FE0#15) ||| (x >>> 3).setWidth 15, fineX := x.extractLsb' 0 3, w := true }

/-- Register 6, address (R393). -/
def Ppu.writeAddr (p : Ppu) (x : Byte) : Ppu :=
  if p.w then
    let t := (p.t &&& 0x7F00#15) ||| x.setWidth 15
    { p with t := t, v := t, w := false }
  else { p with t := (p.t &&& 0x00FF#15) ||| ((x &&& 0x3F#8).setWidth 15 <<< 8), w := true }

/-- Register 7, data (R394). -/
def Pic.writeData (q : Pic) (x : Byte) : Pic :=
  let a := q.ppu.busAddr
  let p := q.ppu.advance
  if 0x3F00 ≤ a.toNat then { q with ppu := p.paletteWrite a x }
  else { q with ppu := p, cart := picWrite q.cart a x }

/-- A write to a register; register 2 ignores it (R386). -/
def Pic.writeReg (q : Pic) (r : BitVec 3) (x : Byte) : Pic :=
  if r = 0#3 then q.writeCtrl x
  else if r = 1#3 then { q with ppu := q.ppu.writeMask x }
  else if r = 2#3 then q
  else if r = 3#3 then { q with ppu := { q.ppu with oamAddr := x } }
  else if r = 4#3 then { q with ppu := q.ppu.writeOam x }
  else if r = 5#3 then { q with ppu := q.ppu.writeScroll x }
  else if r = 6#3 then { q with ppu := q.ppu.writeAddr x }
  else q.writeData x

/-! The schedule. -/

/-- One picture-bus read by the picture unit (R382). -/
def Pic.busRead (q : Pic) (a : BitVec 14) : Byte × Pic :=
  let b := picRead q.cart a
  (b.1, { q with cart := b.2 })

/-- The attribute-table address of `v` (R402). -/
def attrAddr (v : BitVec 15) : BitVec 14 :=
  0x23C0#14 ||| (v &&& 0x0C00#15).setWidth 14 ||| ((v >>> 4) &&& 0x38#15).setWidth 14 |||
    ((v >>> 2) &&& 0x07#15).setWidth 14

/-- Background tile fetch: four picture-bus reads (R402). -/
def Pic.fetchTile (q : Pic) : Pic :=
  let v := q.ppu.v
  let r1 := q.busRead (0x2000#14 ||| (v &&& 0x0FFF#15).setWidth 14)
  let r2 := r1.2.busRead (attrAddr v)
  let at1 := if v.getLsbD 6 then r2.1 >>> 4 else r2.1
  let at2 := if v.getLsbD 1 then at1 >>> 2 else at1
  let pattern := q.ppu.bgPatternBase + (r1.1.setWidth 14 <<< 4) + (v.extractLsb' 12 3).setWidth 14
  let r3 := r2.2.busRead pattern
  let r4 := r3.2.busRead (pattern + 8#14)
  { r4.2 with
    ppu := { q.ppu with
      attrLeft := q.ppu.attrRight
      attrRight := at2.extractLsb' 0 2
      tileLo := ((q.ppu.tileLo &&& 0x00FF#16) <<< 8) ||| r3.1.setWidth 16
      tileHi := ((q.ppu.tileHi &&& 0x00FF#16) <<< 8) ||| r4.1.setWidth 16 } }

/-- A two-bit pattern value. -/
def patternBits (lo hi : Bool) : Nat := (if lo then 1 else 0) + (if hi then 2 else 0)

/-- Background pixel at a dot: 0 is transparent (R403). -/
def Ppu.bgPixel (p : Ppu) (d : Nat) : Nat :=
  if !p.bgEnable || (decide (d < 8) && !p.bgLeft) then 0
  else
    let i := d % 8
    let s := 15 - i - p.fineX.toNat
    let k := patternBits (p.tileLo.getLsbD s) (p.tileHi.getLsbD s)
    if k = 0 then 0
    else (if 7 < i + p.fineX.toNat then p.attrRight else p.attrLeft).toNat * 4 + k

/-- A sprite pixel: colour 1 to 15, priority bit, slot (R406). -/
structure SpritePixel where
  colour : Nat
  behind : Bool
  slot : Nat
  deriving DecidableEq, Repr

/-- The pixel slot `j` of the sprite buffer shows at dot `d`, if it is opaque (R406). -/
def Ppu.spriteSlotPixel (p : Ppu) (d j : Nat) : Option SpritePixel :=
  let x := (Memory.read p.secOam (4 * j + 3)).toNat
  if x ≤ d ∧ d - x < 8 then
    let attr := Memory.read p.secOam (4 * j + 2)
    let col := if attr.getLsbD 6 then 7 - (d - x) else d - x
    let s := 7 - col
    let k := patternBits ((Memory.read p.sprTileLo j).getLsbD s) ((Memory.read p.sprTileHi j).getLsbD s)
    if k = 0 then none
    else some { colour := (attr.extractLsb' 0 2).toNat * 4 + k, behind := attr.getLsbD 5, slot := j }
  else none

/-- Sprite pixel at a dot: the first opaque one of the buffer (R406). -/
def Ppu.spritePixel (p : Ppu) (d : Nat) : Option SpritePixel :=
  if !p.sprEnable || (decide (d < 8) && !p.sprLeft) then none
  else (List.range p.spriteCount).findSome? (p.spriteSlotPixel d)

/-- Pixel production (R404, R405, R409). -/
def Ppu.produceDot (p : Ppu) : Ppu :=
  let d := p.dot
  let sp := p.spritePixel d
  let bp := p.bgPixel d
  let backdrop := p.paletteRead 0#14
  let sprColour (k : SpritePixel) : Byte := p.paletteRead (BitVec.ofNat 14 (0x10 + k.colour))
  let c : Byte :=
    if !p.rendering then (if 0x3F00 ≤ p.busAddr.toNat then p.paletteRead p.busAddr else backdrop)
    else
      match sp with
      | none => if bp = 0 then backdrop else p.paletteRead (BitVec.ofNat 14 bp)
      | some k => if bp = 0 || !k.behind then sprColour k else p.paletteRead (BitVec.ofNat 14 bp)
  let hit : Bool :=
    match sp with
    | none => false
    | some k => p.rendering && bp != 0 && k.slot == 0 && p.spriteZeroIn && d != 255
  { p with
    spriteZeroHit := p.spriteZeroHit || hit
    frameBuffer := Cells.write 0#9 p.frameBuffer (p.scanline * 256 + d) (p.emphasis ++ c.extractLsb' 0 6) }

/-- The dummy sprite pattern address (R407). -/
def Ppu.dummySpriteAddress (p : Ppu) : BitVec 14 :=
  (if p.tallSprites then 0x1000#14 else p.sprPatternBase) + 0x0FFF#14

/-- The pattern address of row `row` of tile `tile` of a sprite (R407). -/
def Ppu.spritePattern (p : Ppu) (tile : Byte) (row : Nat) : BitVec 14 :=
  if p.tallSprites then
    (if tile.getLsbD 0 then 0x1000#14 else 0x0000#14) +
      BitVec.ofNat 14 (((tile &&& 0xFE#8).toNat + row / 8) * 16 + row % 8)
  else p.sprPatternBase + BitVec.ofNat 14 (tile.toNat * 16 + row)

/-- Select OAM entry `n`, on its row `row`, into the next slot of the sprite buffer (R407). -/
def Pic.selectSprite (q : Pic) (n row : Nat) : Pic :=
  let p := q.ppu
  let k := p.spriteCount
  let o (b : Nat) : Byte := Memory.read p.oam (4 * n + b)
  let row := if (o 2).getLsbD 7 then p.spriteHeight - 1 - row else row
  let a := p.spritePattern (o 1) row
  let r1 := q.busRead a
  let r2 := r1.2.busRead (a + 8#14)
  { r2.2 with
    ppu := { p with
      spriteZeroIn := p.spriteZeroIn || n == 0
      secOam :=
        Memory.write (Memory.write (Memory.write (Memory.write p.secOam (4 * k) (o 0))
          (4 * k + 1) (o 1)) (4 * k + 2) (o 2)) (4 * k + 3) (o 3)
      sprTileLo := Memory.write p.sprTileLo k r1.1
      sprTileHi := Memory.write p.sprTileHi k r2.1
      spriteCount := k + 1 } }

/-- The scan over OAM entries: up to eight in-range ones are selected, a ninth sets the overflow flag
and ends the scan (R407, R408). -/
def Pic.scanSprites : List Nat → Pic → Pic
  | [], q => q
  | n :: ns, q =>
    let y := (Memory.read q.ppu.oam (4 * n)).toNat
    if y ≤ q.ppu.scanline ∧ q.ppu.scanline - y < q.ppu.spriteHeight then
      (if q.ppu.spriteCount = 8 then { q with ppu := { q.ppu with spriteOverflow := true } }
       else Pic.scanSprites ns (q.selectSprite n (q.ppu.scanline - y)))
    else Pic.scanSprites ns q

/-- Sprite evaluation, then the dummy read when fewer than eight were found (R407). -/
def Pic.evaluateSprites (q : Pic) : Pic :=
  let q' := Pic.scanSprites (List.range 64) q
  if q'.ppu.spriteCount < 8 then (q'.busRead q'.ppu.dummySpriteAddress).2 else q'

/-- Empty the sprite buffer at dot 270 (R400). -/
def Pic.clearSprites (q : Pic) : Pic :=
  { q with ppu := { q.ppu with spriteZeroIn := false, spriteCount := 0 } }

/-- A tile fetch followed by the coarse-X increment (R400). -/
def Pic.fetchAndIncX (q : Pic) : Pic :=
  let q' := q.fetchTile
  { q' with ppu := { q'.ppu with v := incX q'.ppu.v } }

/-- Start of vertical blank (R412, R413). -/
def Pic.vblankStart (q : Pic) : Pic :=
  { q with
    ppu := { q.ppu with vblank := true, oddFrame := if q.ppu.rendering then !q.ppu.oddFrame else false }
    nmiPending := q.nmiPending || q.ppu.nmiEnable }

/-- The work of a dot of a visible line (R400, R401). -/
def Pic.visibleDot (q : Pic) : Pic :=
  let d := q.ppu.dot
  if d < 256 then
    let q' := { q with ppu := q.ppu.produceDot }
    if (d + 1) % 8 = 0 ∧ q'.ppu.rendering then q'.fetchAndIncX else q'
  else if d = 256 then
    (if q.ppu.rendering then { q with ppu := { q.ppu with v := incY q.ppu.v } } else q)
  else if d = 257 then
    (if q.ppu.rendering then { q with ppu := { q.ppu with v := reloadX q.ppu.v q.ppu.t } } else q)
  else if d = 270 then
    (if q.ppu.rendering then q.clearSprites.evaluateSprites else q.clearSprites)
  else if d = 321 ∨ d = 329 then (if q.ppu.rendering then q.fetchAndIncX else q)
  else q

/-- The work of a dot of the pre-render line (R400, R414).  DEDUCED, unsafe, log 30: at dot 270 the sprite
buffer is emptied with rendering off too (R400, R409), where R414 keeps all but dot 1 to `rendering`. -/
def Pic.preRenderDot (q : Pic) : Pic :=
  let d := q.ppu.dot
  if d = 1 then
    { q with ppu := { q.ppu with vblank := false, spriteZeroHit := false, spriteOverflow := false } }
  else if d = 257 then
    (if q.ppu.rendering then { q with ppu := { q.ppu with v := reloadX q.ppu.v q.ppu.t } } else q)
  else if d = 270 then
    (if q.ppu.rendering then (q.clearSprites.busRead q.ppu.dummySpriteAddress).2 else q.clearSprites)
  else if d = 280 then
    (if q.ppu.rendering then { q with ppu := { q.ppu with v := reloadY q.ppu.v q.ppu.t } } else q)
  else if d = 321 ∨ d = 329 then (if q.ppu.rendering then q.fetchAndIncX else q)
  else q

/-- The work of the current dot, before the position advances (R400, R411). -/
def Pic.dotWork (q : Pic) : Pic :=
  if q.ppu.scanline < 240 then q.visibleDot
  else if q.ppu.scanline = 241 then (if q.ppu.dot = 1 then q.vblankStart else q)
  else if q.ppu.scanline = 261 then q.preRenderDot
  else q

/-- Advance the position, with the odd-frame skip (R415, R416). -/
def Ppu.advancePosition (p : Ppu) : Ppu :=
  if p.dot + 1 = 341 ∨ (p.dot + 1 = 340 ∧ p.scanline = 261 ∧ p.oddFrame = true) then
    { p with dot := 0, scanline := if p.scanline + 1 = 262 then 0 else p.scanline + 1 }
  else { p with dot := p.dot + 1 }

/-- One step of the picture unit (R400). -/
def Pic.step (q : Pic) : Pic :=
  let q' := q.dotWork
  { q' with ppu := q'.ppu.advancePosition }

/-- The picture unit's reach in a state. -/
def State.pic (s : State) : Pic := { ppu := s.ppu, cart := s.cart, nmiPending := s.nmiPending }

/-- A state with the picture unit's reach replaced. -/
def State.withPic (s : State) (q : Pic) : State :=
  { s with ppu := q.ppu, cart := q.cart, nmiPending := q.nmiPending }

/-- `ppu.step()` on the whole machine (R360, R400). -/
def ppuStep (s : State) : State := s.withPic s.pic.step

/-- Hard reset of the picture unit: the values of R381, OAM and palette RAM at POWER_ON_RAM (R37, R600). -/
def Ppu.hardReset (p : PowerOn) : Ppu := { Ppu.reset with oam := p.oam, palette := p.palette }

/-- Soft reset of the picture unit: the values of R381, but that OAM, palette RAM and the frame buffer stay where
the machine follows R37, R600 and R603, as it does by default (log 9). -/
def Ppu.softReset (r : SoftReset) (p : Ppu) : Ppu :=
  match r with
  | .keepsPicture => { Ppu.reset with oam := p.oam, palette := p.palette, frameBuffer := p.frameBuffer }
  | .clearsPicture => Ppu.reset

end Sys2Proof.Machine
end

