-- ==== Sys2Proof/Machine/Timing.lean ====
section
/-! DEFINITION. The cycle costs of the instructions: the argument CYCLE_TABLE, its default, and the cost of an
instruction by it (spec/30_encoding.md R104, R109; spec/70_reset_and_hazards.md R620; log 12). -/

namespace Sys2Proof.Machine

/-- Default base cost of each opcode in processor cycles, one row per high nibble (R109). -/
def defaultBases : List (List Nat) :=
  [[7, 6, 2, 8, 3, 3, 5, 5, 3, 2, 2, 2, 4, 4, 6, 6],
   [2, 5, 2, 8, 4, 4, 6, 6, 2, 4, 2, 7, 4, 4, 7, 7],
   [6, 6, 2, 8, 3, 3, 5, 5, 4, 2, 2, 2, 4, 4, 6, 6],
   [2, 5, 2, 8, 4, 4, 6, 6, 2, 4, 2, 7, 4, 4, 7, 7],
   [6, 6, 2, 8, 3, 3, 5, 5, 3, 2, 2, 2, 3, 4, 6, 6],
   [2, 5, 2, 8, 4, 4, 6, 6, 2, 4, 2, 7, 4, 4, 7, 7],
   [6, 6, 2, 8, 3, 3, 5, 5, 4, 2, 2, 2, 5, 4, 6, 6],
   [2, 5, 2, 8, 4, 4, 6, 6, 2, 4, 2, 7, 4, 4, 7, 7],
   [2, 6, 2, 6, 3, 3, 3, 3, 2, 2, 2, 2, 4, 4, 4, 4],
   [2, 6, 2, 6, 4, 4, 4, 4, 2, 5, 2, 5, 5, 5, 5, 5],
   [2, 6, 2, 6, 3, 3, 3, 3, 2, 2, 2, 2, 4, 4, 4, 4],
   [2, 5, 2, 5, 4, 4, 4, 4, 2, 4, 2, 4, 4, 4, 4, 4],
   [2, 6, 2, 8, 3, 3, 5, 5, 2, 2, 2, 2, 4, 4, 6, 6],
   [2, 5, 2, 8, 4, 4, 6, 6, 2, 4, 2, 7, 4, 4, 7, 7],
   [2, 6, 2, 8, 3, 3, 5, 5, 2, 2, 2, 2, 4, 4, 6, 6],
   [2, 5, 2, 8, 4, 4, 6, 6, 2, 4, 2, 7, 4, 4, 7, 7]]

/-- The opcodes whose default row carries the mark `*`: reads in modes abx, aby, izy (R104, R109). -/
def penaltyOpcodes : List Byte :=
  [0x11#8, 0x19#8, 0x1C#8, 0x1D#8, 0x31#8, 0x39#8, 0x3C#8, 0x3D#8, 0x51#8, 0x59#8,
   0x5C#8, 0x5D#8, 0x71#8, 0x79#8, 0x7C#8, 0x7D#8, 0xB1#8, 0xB3#8, 0xB9#8, 0xBB#8,
   0xBC#8, 0xBD#8, 0xBE#8, 0xBF#8, 0xD1#8, 0xD9#8, 0xDC#8, 0xDD#8, 0xF1#8, 0xF9#8,
   0xFC#8, 0xFD#8]

/-- The default row of an opcode (R109). -/
def defaultRow (op : Byte) : CycleRow :=
  { base := (defaultBases.getD (op.toNat / 16) []).getD (op.toNat % 16) 0
    penalty := penaltyOpcodes.contains op }

/-- The row of an opcode in the machine's cost table: the row listed, else the default one (R109, R620). -/
def cycleRow (s : State) (op : Byte) : CycleRow := Cells.read (defaultRow op) s.args.cycleTable op.toNat

/-- The cost of a row, one more where it is marked and the indexing crossed a page (R104). -/
def CycleRow.cost (r : CycleRow) (crossed : Bool) : Nat := r.base + (if crossed && r.penalty then 1 else 0)

/-- Total cost of an instruction that is no branch (R104, R109). -/
def cyclesOf (s : State) (op : Byte) (crossed : Bool) : Nat := (cycleRow s op).cost crossed

/-- The cost table of 256 rows, as the list of those that differ from the default (log 12). -/
def cycleTableOf (rows : Byte → CycleRow) : CycleTable :=
  (List.range 256).filterMap fun k =>
    let op := BitVec.ofNat 8 k
    if rows op = defaultRow op then none else some (k, rows op)

/-- The machine given other arguments (R5). -/
def State.withArgs (a : Arguments) (s : State) : State := { s with args := a }

/-- The machine given another cost table as its argument (R5, R620). -/
def State.withCycleTable (rows : Byte → CycleRow) (s : State) : State :=
  s.withArgs { s.args with cycleTable := cycleTableOf rows }

/-- Cost of an interrupt entry (R306, R621). -/
def entryCycles : Nat := 7

end Sys2Proof.Machine
end

