-- ==== Sys2Proof/Machine/Ops.lean ====
section
/-! DEFINITION. The bus dispatcher (read, write, peek), the stack, the interrupt entry and the return from
it: the operations every instruction is built from (spec/20_memory.md; spec/00_scope.md R8;
spec/60_exceptions.md R306, R313). -/

namespace Sys2Proof.Machine

/-- Continue a result with a change of the state. -/
def thenDo (r : Result) (f : State → State) : Result :=
  match r with
  | .next s => .next (f s)
  | .fault e => .fault e
  | .refused e => .refused e

/-! Controller ports (R346). -/

/-- What a read of a port returns: the next button in bit 0, bit 6 set. -/
def Port.peek (p : Port) : Byte := (p.latched &&& 0x01#8) ||| 0x40#8

/-- The shift a read performs. -/
def Port.shift (p : Port) : Port := { p with latched := (p.latched >>> 1) ||| 0x80#8 }

/-! The CPU bus (R50 to R56). -/

/-- The work-RAM cell of an address below 0x2000 (R53). -/
def ramIndex (a : Word) : Nat := a.toNat % 0x800

/-- The picture-unit register of an address from 0x2000 to 0x3FFF (R54). -/
def ppuRegister (a : Word) : BitVec 3 := a.extractLsb' 0 3

/-- Non-destructive read: what `busRead` returns, changing nothing (R51, R585). -/
def busPeek (s : State) (a : Word) : Byte :=
  if a.toNat < 0x2000 then Memory.read s.ram (ramIndex a)
  else if a.toNat < 0x4000 then s.pic.peekReg (ppuRegister a)
  else if a.toNat < 0x4020 then
    (if a = 0x4015#16 then s.apu.status
     else if a = 0x4016#16 then s.port1.peek
     else if a = 0x4017#16 then s.port2.peek
     else 0x00#8)
  else cartRead s.cart a

/-- What a read changes: the picture unit's registers 2 and 7, the frame interrupt flag, the controller
shift registers; nothing anywhere else (R61). -/
def afterRead (s : State) (a : Word) : State :=
  if a.toNat < 0x2000 then s
  else if a.toNat < 0x4000 then s.withPic (s.pic.afterRead (ppuRegister a))
  else if a = 0x4015#16 then { s with apu := { s.apu with frameIrq := false } }
  else if a = 0x4016#16 then { s with port1 := s.port1.shift }
  else if a = 0x4017#16 then { s with port2 := s.port2.shift }
  else s

/-- `read(addr)` of the dispatcher: the byte and the state after it (R51, R52). -/
def busRead (s : State) (a : Word) : Byte × State := (busPeek s a, afterRead s a)

/-- The transfer takes 514 cycles and not 513: by the parity of the processor cycle, or by the machine's
argument (R352; log 13). -/
def longDma (s : State) : Bool :=
  match s.args.dmaLength with
  | .parity => decide (s.masterCycle / 3 % 2 = 1)
  | .always513 => false
  | .always514 => true

/-- Start of OAM DMA by a write to 0x4014, with one or two idle cycles (R350, R352). -/
def startDma (s : State) (x : Byte) : State :=
  { s with inDma := true, dmaPage := x, dmaCounter := if longDma s then 0 else 1 }

/-- Write to the I/O window 0x4000 to 0x401F (R55). -/
def ioWrite (s : State) (a : Word) (x : Byte) : State :=
  let r : BitVec 2 := a.extractLsb' 0 2
  if a.toNat < 0x4004 then { s with apu := { s.apu with p1 := Pulse.write true s.apu.p1 r x } }
  else if a.toNat < 0x4008 then { s with apu := { s.apu with p2 := Pulse.write false s.apu.p2 r x } }
  else if a.toNat < 0x400C then { s with apu := { s.apu with tri := s.apu.tri.write r x } }
  else if a.toNat < 0x4010 then { s with apu := { s.apu with noise := s.apu.noise.write r x } }
  else if a.toNat < 0x4014 then { s with apu := s.apu.writeDmc r x }
  else if a = 0x4014#16 then startDma s x
  else if a = 0x4015#16 then { s with apu := s.apu.writeEnable x }
  else if a = 0x4016#16 then { s with strobe := x.getLsbD 0 }
  else if a = 0x4017#16 then { s with apu := s.apu.writeFrame x }
  else s

/-- `write(addr, val)` of the dispatcher (R51, R52, R62). -/
def busWrite (s : State) (a : Word) (x : Byte) : State :=
  if a.toNat < 0x2000 then { s with ram := Memory.write s.ram (ramIndex a) x }
  else if a.toNat < 0x4000 then s.withPic (s.pic.writeReg (ppuRegister a) x)
  else if a.toNat < 0x4020 then ioWrite s a x
  else { s with cart := cartWrite s.cart a x }

/-- Two reads, low byte then high byte, from two addresses the rule names (R7, R60). -/
def busReadWord (s : State) (lo hi : Word) : Word × State :=
  let r1 := busRead s lo
  let r2 := busRead r1.2 hi
  (wordOf r1.1 r2.1, r2.2)

/-! The stack (R8, R22). -/

/-- The stack address of a stack pointer: page 1. -/
def stackAddr (sp : Byte) : Word := wordOf sp 0x01#8

/-- Push one byte: store, then decrement S modulo 256. -/
def push (x : Byte) (s : State) : State :=
  let t := busWrite s (stackAddr s.sp) x
  { t with sp := s.sp - 1#8 }

/-- Pull one byte: increment S modulo 256, then load. -/
def pull (s : State) : Byte × State :=
  busRead { s with sp := s.sp + 1#8 } (stackAddr (s.sp + 1#8))

/-- Push a 16-bit value, high byte first (R203, R306). -/
def pushWord (w : Word) (s : State) : State := push (loByte w) (push (hiByte w) s)

/-- Pull a 16-bit value, low byte first (R204, R205). -/
def pullWord (s : State) : Word × State :=
  let r1 := pull s
  let r2 := pull r1.2
  (wordOf r1.1 r2.1, r2.2)

/-! Interrupt entry and return. -/

/-- NMI vector (R304). -/
def nmiVector : Word := 0xFFFA#16

/-- Reset vector (R70). -/
def resetVector : Word := 0xFFFC#16

/-- IRQ and BRK vector (R305, R206). -/
def irqVector : Word := 0xFFFE#16

/-- The entry sequence of NMI, IRQ and BRK: push the return address and the status byte with break bit
`b`, set I, load PC from the vector, 7 cycles (R306; R206 for BRK, which then takes its row's cost). -/
def interruptEntry (vector : Word) (b : Bool) (ret : Word) (s : State) : State :=
  let s1 := pushWord ret s
  let s2 := push (packP b s1) s1
  let r := busReadWord { s2 with flagI := true } vector (vector + 1#16)
  { r.2 with pc := r.1, cyclesRemaining := entryCycles }

/-- The return of RTI: pull the status byte, then PC (R205, R313). -/
def interruptReturn (s : State) : State :=
  let r := pull s
  let w := pullWord (unpackP r.1 r.2)
  { w.2 with pc := w.1 }

/-! Completing an instruction. -/

/-- The cost of an instruction in flight is set and the instruction is complete (R7 `cycles`, R302). -/
def finish (cycles : Nat) (s : State) : Result := .next { s with cyclesRemaining := cycles }

end Sys2Proof.Machine
end

