-- ==== Sys2Proof/Machine/ApuStep.lean ====
section
/-! DEFINITION. The audio unit's step on the whole machine, with the DMC's sample fetch on the CPU bus
(spec/63_apu.md R455, R493). -/

namespace Sys2Proof.Machine

/-- The DMC's memory reader: when it wants a byte it reads one through the bus, without stalling the CPU
(R493, D35). -/
def dmcFetch (s : State) : State :=
  if s.apu.dmc.wantsByte then
    let r := busRead s s.apu.dmc.address
    { r.2 with apu := r.2.apu.takeDmcByte r.1 }
  else s

/-- `apu.step()`: the frame sequencer, the channels, the DMC's reader, one sample (R455). -/
def apuStep (s : State) : State :=
  let t := dmcFetch { s with apu := s.apu.stepChannels }
  { t with apu := t.apu.appendSample }

end Sys2Proof.Machine
end

