-- ==== Sys2Proof/Machine/Operands.lean ====
section
/-! DEFINITION. The addressing modes that name an operand byte, and reading, writing and modifying it
(spec/30_encoding.md R93 to R102, R104).  They run after the operand bytes were fetched: PC is the address
of the next instruction. -/

namespace Sys2Proof.Machine

/-- An operand of a data instruction, with the bytes fetched for it. -/
inductive Operand where
  /-- The operand byte itself (R93). -/
  | imm (b : Byte)
  /-- Zero page (R94). -/
  | zp (b : Byte)
  /-- Zero page indexed by X (R95). -/
  | zpx (b : Byte)
  /-- Zero page indexed by Y (R96). -/
  | zpy (b : Byte)
  /-- Absolute (R97). -/
  | abs (w : Word)
  /-- Absolute indexed by X (R98). -/
  | abx (w : Word)
  /-- Absolute indexed by Y (R99). -/
  | aby (w : Word)
  /-- Indexed indirect (R101). -/
  | izx (b : Byte)
  /-- Indirect indexed (R102). -/
  | izy (b : Byte)
  deriving DecidableEq, Repr

/-- A zero-page address (R105). -/
def zeroPage (b : Byte) : Word := b.setWidth 16

/-- The high bytes differ (R8 `pageCross`). -/
def pageCross (a b : Word) : Bool := hiByte a != hiByte b

/-- What an addressing-mode procedure yields: the effective address, whether indexing crossed a page, and
the state after its pointer reads. -/
structure Located where
  ea : Word
  crossed : Bool
  state : State
  deriving DecidableEq, Repr

/-- The addressing-mode procedures (R93 to R102).  An immediate operand's address is that of the byte
before the next instruction. -/
def locate (o : Operand) (s : State) : Located :=
  match o with
  | .imm _ => { ea := s.pc - 1#16, crossed := false, state := s }
  | .zp b => { ea := zeroPage b, crossed := false, state := s }
  | .zpx b => { ea := zeroPage (b + s.x), crossed := false, state := s }
  | .zpy b => { ea := zeroPage (b + s.y), crossed := false, state := s }
  | .abs w => { ea := w, crossed := false, state := s }
  | .abx w =>
    let ea := w + s.x.setWidth 16
    { ea := ea, crossed := pageCross w ea, state := s }
  | .aby w =>
    let ea := w + s.y.setWidth 16
    { ea := ea, crossed := pageCross w ea, state := s }
  | .izx b =>
    let p := b + s.x
    let r := busReadWord s (zeroPage p) (zeroPage (p + 1#8))
    { ea := r.1, crossed := false, state := r.2 }
  | .izy b =>
    let r := busReadWord s (zeroPage b) (zeroPage (b + 1#8))
    let ea := r.1 + s.y.setWidth 16
    { ea := ea, crossed := pageCross r.1 ea, state := r.2 }

/-- An operand byte that was read. -/
structure Operated where
  value : Byte
  crossed : Bool
  state : State
  deriving DecidableEq, Repr

/-- Read the operand byte: one bus read at the effective address (R63, R130, R170).  An immediate operand
was read when it was fetched (R93). -/
def readOperand (o : Operand) (s : State) : Operated :=
  match o with
  | .imm b => { value := b, crossed := false, state := s }
  | o =>
    let l := locate o s
    let r := busRead l.state l.ea
    { value := r.1, crossed := l.crossed, state := r.2 }

/-- A read instruction: the operand byte is given to `f`, then the cost is set (R104, R130, R170). -/
def readWith (op : Byte) (o : Operand) (f : Byte → State → State) (s : State) : Result :=
  let r := readOperand o s
  finish (cyclesOf s op r.crossed) (f r.value r.state)

/-- A store instruction: one bus write at the effective address, no read of it (R63, R130). -/
def storeTo (op : Byte) (o : Operand) (x : Byte) (s : State) : Result :=
  let l := locate o s
  finish (cyclesOf s op l.crossed) (busWrite l.state l.ea x)

/-- A read-modify-write instruction: one read, one write at the same address, then `after` with the
result byte (R63, R66, R180, R240). -/
def modifyAt (op : Byte) (o : Operand) (f : Byte → Bool → Shifted) (after : Byte → State → State)
    (s : State) : Result :=
  let l := locate o s
  let r := busRead l.state l.ea
  let m := f r.1 r.2.flagC
  let t := busWrite r.2 l.ea m.result
  finish (cyclesOf s op l.crossed) (after m.result { t with flagC := m.carry })

end Sys2Proof.Machine
end

