-- ==== Sys2Proof/Machine/Alu.lean ====
section
/-! DEFINITION. Logic, arithmetic, compare and bit test (spec/42_logic_arith_compare.md R160 to R170).
Each meaning runs after the instruction's bytes were fetched: PC is the address of the next instruction. -/

namespace Sys2Proof.Machine

/-- OR into A (R161). -/
def oraA (m : Byte) (s : State) : State := setZN (s.a ||| m) { s with a := s.a ||| m }

/-- AND into A (R162). -/
def andA (m : Byte) (s : State) : State := setZN (s.a &&& m) { s with a := s.a &&& m }

/-- Exclusive OR into A (R163). -/
def eorA (m : Byte) (s : State) : State := setZN (s.a ^^^ m) { s with a := s.a ^^^ m }

/-- Compare A (R166). -/
def cmpA (m : Byte) (s : State) : State := compareWith s.a m s

/-- Compare X (R167). -/
def cmpX (m : Byte) (s : State) : State := compareWith s.x m s

/-- Compare Y (R168). -/
def cmpY (m : Byte) (s : State) : State := compareWith s.y m s

/-- Bit test: Z from the AND, N and V from bits 7 and 6 of the operand (R169). -/
def bitTest (m : Byte) (s : State) : State :=
  { s with flagZ := (s.a &&& m) == 0#8, flagN := m.getLsbD 7, flagV := m.getLsbD 6 }

/-- ORA, (indirect,X), opcode 0x01 (R161). -/
def execOraIzx (zp : Byte) (s : State) : Result := readWith 0x01#8 (.izx zp) oraA s

/-- ORA, zero page, opcode 0x05 (R161). -/
def execOraZp (zp : Byte) (s : State) : Result := readWith 0x05#8 (.zp zp) oraA s

/-- ORA, immediate, opcode 0x09 (R161). -/
def execOraImm (imm : Byte) (s : State) : Result := readWith 0x09#8 (.imm imm) oraA s

/-- ORA, absolute, opcode 0x0D (R161). -/
def execOraAbs (addr : Word) (s : State) : Result := readWith 0x0D#8 (.abs addr) oraA s

/-- ORA, (indirect),Y, opcode 0x11 (R161). -/
def execOraIzy (zp : Byte) (s : State) : Result := readWith 0x11#8 (.izy zp) oraA s

/-- ORA, zero page,X, opcode 0x15 (R161). -/
def execOraZpx (zp : Byte) (s : State) : Result := readWith 0x15#8 (.zpx zp) oraA s

/-- ORA, absolute,Y, opcode 0x19 (R161). -/
def execOraAby (addr : Word) (s : State) : Result := readWith 0x19#8 (.aby addr) oraA s

/-- ORA, absolute,X, opcode 0x1D (R161). -/
def execOraAbx (addr : Word) (s : State) : Result := readWith 0x1D#8 (.abx addr) oraA s

/-- AND, (indirect,X), opcode 0x21 (R162). -/
def execAndIzx (zp : Byte) (s : State) : Result := readWith 0x21#8 (.izx zp) andA s

/-- BIT, zero page, opcode 0x24 (R169). -/
def execBitZp (zp : Byte) (s : State) : Result := readWith 0x24#8 (.zp zp) bitTest s

/-- AND, zero page, opcode 0x25 (R162). -/
def execAndZp (zp : Byte) (s : State) : Result := readWith 0x25#8 (.zp zp) andA s

/-- AND, immediate, opcode 0x29 (R162). -/
def execAndImm (imm : Byte) (s : State) : Result := readWith 0x29#8 (.imm imm) andA s

/-- BIT, absolute, opcode 0x2C (R169). -/
def execBitAbs (addr : Word) (s : State) : Result := readWith 0x2C#8 (.abs addr) bitTest s

/-- AND, absolute, opcode 0x2D (R162). -/
def execAndAbs (addr : Word) (s : State) : Result := readWith 0x2D#8 (.abs addr) andA s

/-- AND, (indirect),Y, opcode 0x31 (R162). -/
def execAndIzy (zp : Byte) (s : State) : Result := readWith 0x31#8 (.izy zp) andA s

/-- AND, zero page,X, opcode 0x35 (R162). -/
def execAndZpx (zp : Byte) (s : State) : Result := readWith 0x35#8 (.zpx zp) andA s

/-- AND, absolute,Y, opcode 0x39 (R162). -/
def execAndAby (addr : Word) (s : State) : Result := readWith 0x39#8 (.aby addr) andA s

/-- AND, absolute,X, opcode 0x3D (R162). -/
def execAndAbx (addr : Word) (s : State) : Result := readWith 0x3D#8 (.abx addr) andA s

/-- EOR, (indirect,X), opcode 0x41 (R163). -/
def execEorIzx (zp : Byte) (s : State) : Result := readWith 0x41#8 (.izx zp) eorA s

/-- EOR, zero page, opcode 0x45 (R163). -/
def execEorZp (zp : Byte) (s : State) : Result := readWith 0x45#8 (.zp zp) eorA s

/-- EOR, immediate, opcode 0x49 (R163). -/
def execEorImm (imm : Byte) (s : State) : Result := readWith 0x49#8 (.imm imm) eorA s

/-- EOR, absolute, opcode 0x4D (R163). -/
def execEorAbs (addr : Word) (s : State) : Result := readWith 0x4D#8 (.abs addr) eorA s

/-- EOR, (indirect),Y, opcode 0x51 (R163). -/
def execEorIzy (zp : Byte) (s : State) : Result := readWith 0x51#8 (.izy zp) eorA s

/-- EOR, zero page,X, opcode 0x55 (R163). -/
def execEorZpx (zp : Byte) (s : State) : Result := readWith 0x55#8 (.zpx zp) eorA s

/-- EOR, absolute,Y, opcode 0x59 (R163). -/
def execEorAby (addr : Word) (s : State) : Result := readWith 0x59#8 (.aby addr) eorA s

/-- EOR, absolute,X, opcode 0x5D (R163). -/
def execEorAbx (addr : Word) (s : State) : Result := readWith 0x5D#8 (.abx addr) eorA s

/-- ADC, (indirect,X), opcode 0x61 (R164). -/
def execAdcIzx (zp : Byte) (s : State) : Result := readWith 0x61#8 (.izx zp) adcInto s

/-- ADC, zero page, opcode 0x65 (R164). -/
def execAdcZp (zp : Byte) (s : State) : Result := readWith 0x65#8 (.zp zp) adcInto s

/-- ADC, immediate, opcode 0x69 (R164). -/
def execAdcImm (imm : Byte) (s : State) : Result := readWith 0x69#8 (.imm imm) adcInto s

/-- ADC, absolute, opcode 0x6D (R164). -/
def execAdcAbs (addr : Word) (s : State) : Result := readWith 0x6D#8 (.abs addr) adcInto s

/-- ADC, (indirect),Y, opcode 0x71 (R164). -/
def execAdcIzy (zp : Byte) (s : State) : Result := readWith 0x71#8 (.izy zp) adcInto s

/-- ADC, zero page,X, opcode 0x75 (R164). -/
def execAdcZpx (zp : Byte) (s : State) : Result := readWith 0x75#8 (.zpx zp) adcInto s

/-- ADC, absolute,Y, opcode 0x79 (R164). -/
def execAdcAby (addr : Word) (s : State) : Result := readWith 0x79#8 (.aby addr) adcInto s

/-- ADC, absolute,X, opcode 0x7D (R164). -/
def execAdcAbx (addr : Word) (s : State) : Result := readWith 0x7D#8 (.abx addr) adcInto s

/-- CPY, immediate, opcode 0xC0 (R168). -/
def execCpyImm (imm : Byte) (s : State) : Result := readWith 0xC0#8 (.imm imm) cmpY s

/-- CMP, (indirect,X), opcode 0xC1 (R166). -/
def execCmpIzx (zp : Byte) (s : State) : Result := readWith 0xC1#8 (.izx zp) cmpA s

/-- CPY, zero page, opcode 0xC4 (R168). -/
def execCpyZp (zp : Byte) (s : State) : Result := readWith 0xC4#8 (.zp zp) cmpY s

/-- CMP, zero page, opcode 0xC5 (R166). -/
def execCmpZp (zp : Byte) (s : State) : Result := readWith 0xC5#8 (.zp zp) cmpA s

/-- CMP, immediate, opcode 0xC9 (R166). -/
def execCmpImm (imm : Byte) (s : State) : Result := readWith 0xC9#8 (.imm imm) cmpA s

/-- CPY, absolute, opcode 0xCC (R168). -/
def execCpyAbs (addr : Word) (s : State) : Result := readWith 0xCC#8 (.abs addr) cmpY s

/-- CMP, absolute, opcode 0xCD (R166). -/
def execCmpAbs (addr : Word) (s : State) : Result := readWith 0xCD#8 (.abs addr) cmpA s

/-- CMP, (indirect),Y, opcode 0xD1 (R166). -/
def execCmpIzy (zp : Byte) (s : State) : Result := readWith 0xD1#8 (.izy zp) cmpA s

/-- CMP, zero page,X, opcode 0xD5 (R166). -/
def execCmpZpx (zp : Byte) (s : State) : Result := readWith 0xD5#8 (.zpx zp) cmpA s

/-- CMP, absolute,Y, opcode 0xD9 (R166). -/
def execCmpAby (addr : Word) (s : State) : Result := readWith 0xD9#8 (.aby addr) cmpA s

/-- CMP, absolute,X, opcode 0xDD (R166). -/
def execCmpAbx (addr : Word) (s : State) : Result := readWith 0xDD#8 (.abx addr) cmpA s

/-- CPX, immediate, opcode 0xE0 (R167). -/
def execCpxImm (imm : Byte) (s : State) : Result := readWith 0xE0#8 (.imm imm) cmpX s

/-- SBC, (indirect,X), opcode 0xE1 (R165). -/
def execSbcIzx (zp : Byte) (s : State) : Result := readWith 0xE1#8 (.izx zp) sbcInto s

/-- CPX, zero page, opcode 0xE4 (R167). -/
def execCpxZp (zp : Byte) (s : State) : Result := readWith 0xE4#8 (.zp zp) cmpX s

/-- SBC, zero page, opcode 0xE5 (R165). -/
def execSbcZp (zp : Byte) (s : State) : Result := readWith 0xE5#8 (.zp zp) sbcInto s

/-- SBC, immediate, opcode 0xE9 (R165). -/
def execSbcImm (imm : Byte) (s : State) : Result := readWith 0xE9#8 (.imm imm) sbcInto s

/-- CPX, absolute, opcode 0xEC (R167). -/
def execCpxAbs (addr : Word) (s : State) : Result := readWith 0xEC#8 (.abs addr) cmpX s

/-- SBC, absolute, opcode 0xED (R165). -/
def execSbcAbs (addr : Word) (s : State) : Result := readWith 0xED#8 (.abs addr) sbcInto s

/-- SBC, (indirect),Y, opcode 0xF1 (R165). -/
def execSbcIzy (zp : Byte) (s : State) : Result := readWith 0xF1#8 (.izy zp) sbcInto s

/-- SBC, zero page,X, opcode 0xF5 (R165). -/
def execSbcZpx (zp : Byte) (s : State) : Result := readWith 0xF5#8 (.zpx zp) sbcInto s

/-- SBC, absolute,Y, opcode 0xF9 (R165). -/
def execSbcAby (addr : Word) (s : State) : Result := readWith 0xF9#8 (.aby addr) sbcInto s

/-- SBC, absolute,X, opcode 0xFD (R165). -/
def execSbcAbx (addr : Word) (s : State) : Result := readWith 0xFD#8 (.abx addr) sbcInto s

end Sys2Proof.Machine
end

