-- ==== Sys2Proof/Machine/Control.lean ====
section
/-! DEFINITION. Jumps, calls, returns, the break instruction and the branches (spec/44_control_flow.md R200 to R214).
Each meaning runs after the instruction's bytes were fetched: PC is the address of the next instruction. -/

namespace Sys2Proof.Machine

/-- The conditional branch: its row's cost, 2 by default, one more when taken, one more again when taken to
another page than that of the next instruction, whose address PC holds (R103, R109, R200; that the row
replaces the 2 of R200 is DESIGN CHOICE, log 12). -/
def branch (op : Byte) (cond : Bool) (off : Byte) (s : State) : Result :=
  let target := s.pc + off.signExtend 16
  if cond then
    finish ((cycleRow s op).base + 1 + (if pageCross s.pc target then 1 else 0)) { s with pc := target }
  else finish (cycleRow s op).base s

/-- Jump (R201). -/
def jumpTo (w : Word) (s : State) : State := { s with pc := w }

/-- Jump through a pointer; its high byte is read in the page of its low byte (R60, R100, R202). -/
def jumpIndirect (w : Word) (s : State) : State :=
  let r := busReadWord s w (wordOf (loByte w + 1#8) (hiByte w))
  { r.2 with pc := r.1 }

/-- Call: push the address of the instruction's last byte, high byte first, then jump (R203). -/
def callTo (w : Word) (s : State) : State := { pushWord (s.pc - 1#16) s with pc := w }

/-- Return from a call: pull the address and add the 1 back (R204). -/
def subroutineReturn (s : State) : State :=
  let r := pullWord s
  { r.2 with pc := r.1 + 1#16 }

/-- BRK, implied, opcode 0x00 (R206; its cost is its row's, 7 by default: DESIGN CHOICE, log 12). -/
def execBrk (s : State) : Result :=
  finish (cyclesOf s 0x00#8 false) (interruptEntry irqVector true (s.pc + 1#16) s)

/-- BPL, relative, opcode 0x10 (R207). -/
def execBpl (off : Byte) (s : State) : Result := branch 0x10#8 (!s.flagN) off s

/-- JSR, absolute, opcode 0x20 (R203). -/
def execJsr (addr : Word) (s : State) : Result := finish (cyclesOf s 0x20#8 false) (callTo addr s)

/-- BMI, relative, opcode 0x30 (R208). -/
def execBmi (off : Byte) (s : State) : Result := branch 0x30#8 s.flagN off s

/-- RTI, implied, opcode 0x40 (R205). -/
def execRti (s : State) : Result := finish (cyclesOf s 0x40#8 false) (interruptReturn s)

/-- JMP, absolute, opcode 0x4C (R201). -/
def execJmpAbs (addr : Word) (s : State) : Result := finish (cyclesOf s 0x4C#8 false) (jumpTo addr s)

/-- BVC, relative, opcode 0x50 (R209). -/
def execBvc (off : Byte) (s : State) : Result := branch 0x50#8 (!s.flagV) off s

/-- RTS, implied, opcode 0x60 (R204). -/
def execRts (s : State) : Result := finish (cyclesOf s 0x60#8 false) (subroutineReturn s)

/-- JMP, indirect, opcode 0x6C (R202). -/
def execJmpInd (addr : Word) (s : State) : Result :=
  finish (cyclesOf s 0x6C#8 false) (jumpIndirect addr s)

/-- BVS, relative, opcode 0x70 (R210). -/
def execBvs (off : Byte) (s : State) : Result := branch 0x70#8 s.flagV off s

/-- BCC, relative, opcode 0x90 (R211). -/
def execBcc (off : Byte) (s : State) : Result := branch 0x90#8 (!s.flagC) off s

/-- BCS, relative, opcode 0xB0 (R212). -/
def execBcs (off : Byte) (s : State) : Result := branch 0xB0#8 s.flagC off s

/-- BNE, relative, opcode 0xD0 (R213). -/
def execBne (off : Byte) (s : State) : Result := branch 0xD0#8 (!s.flagZ) off s

/-- BEQ, relative, opcode 0xF0 (R214). -/
def execBeq (off : Byte) (s : State) : Result := branch 0xF0#8 s.flagZ off s

end Sys2Proof.Machine
end

