-- ==== Sys2Proof/Machine/FlagOps.lean ====
section
/-! DEFINITION. The flag instructions and the official NOP (spec/45_flags_nop.md R230 to R237).
Each meaning runs after the instruction's bytes were fetched: PC is the address of the next instruction. -/

namespace Sys2Proof.Machine

/-- CLC, implied, opcode 0x18 (R230). -/
def execClc (s : State) : Result := finish (cyclesOf s 0x18#8 false) { s with flagC := false }

/-- SEC, implied, opcode 0x38 (R231). -/
def execSec (s : State) : Result := finish (cyclesOf s 0x38#8 false) { s with flagC := true }

/-- CLI, implied, opcode 0x58 (R232). -/
def execCli (s : State) : Result := finish (cyclesOf s 0x58#8 false) { s with flagI := false }

/-- SEI, implied, opcode 0x78 (R233). -/
def execSei (s : State) : Result := finish (cyclesOf s 0x78#8 false) { s with flagI := true }

/-- CLV, implied, opcode 0xB8 (R234). -/
def execClv (s : State) : Result := finish (cyclesOf s 0xB8#8 false) { s with flagV := false }

/-- CLD, implied, opcode 0xD8 (R235). -/
def execCld (s : State) : Result := finish (cyclesOf s 0xD8#8 false) { s with flagD := false }

/-- NOP, implied, opcode 0xEA (R237). -/
def execNop (s : State) : Result := finish (cyclesOf s 0xEA#8 false) s

/-- SED, implied, opcode 0xF8 (R236). -/
def execSed (s : State) : Result := finish (cyclesOf s 0xF8#8 false) { s with flagD := true }

end Sys2Proof.Machine
end

