-- ==== Sys2Proof/Machine/LoadStore.lean ====
section
/-! DEFINITION. The loads, stores and register transfers (spec/40_load_store_transfer.md R130 to R142).
Each meaning runs after the instruction's bytes were fetched: PC is the address of the next instruction. -/

namespace Sys2Proof.Machine

/-- Load A: the value, and zero and negative from it (R131). -/
def loadA (v : Byte) (s : State) : State := setZN v { s with a := v }

/-- Load X (R132). -/
def loadX (v : Byte) (s : State) : State := setZN v { s with x := v }

/-- Load Y (R133). -/
def loadY (v : Byte) (s : State) : State := setZN v { s with y := v }

/-- STA, (indirect,X), opcode 0x81 (R134). -/
def execStaIzx (zp : Byte) (s : State) : Result := storeTo 0x81#8 (.izx zp) s.a s

/-- STY, zero page, opcode 0x84 (R136). -/
def execStyZp (zp : Byte) (s : State) : Result := storeTo 0x84#8 (.zp zp) s.y s

/-- STA, zero page, opcode 0x85 (R134). -/
def execStaZp (zp : Byte) (s : State) : Result := storeTo 0x85#8 (.zp zp) s.a s

/-- STX, zero page, opcode 0x86 (R135). -/
def execStxZp (zp : Byte) (s : State) : Result := storeTo 0x86#8 (.zp zp) s.x s

/-- TXA, implied, opcode 0x8A (R139). -/
def execTxa (s : State) : Result := finish (cyclesOf s 0x8A#8 false) (loadA s.x s)

/-- STY, absolute, opcode 0x8C (R136). -/
def execStyAbs (addr : Word) (s : State) : Result := storeTo 0x8C#8 (.abs addr) s.y s

/-- STA, absolute, opcode 0x8D (R134). -/
def execStaAbs (addr : Word) (s : State) : Result := storeTo 0x8D#8 (.abs addr) s.a s

/-- STX, absolute, opcode 0x8E (R135). -/
def execStxAbs (addr : Word) (s : State) : Result := storeTo 0x8E#8 (.abs addr) s.x s

/-- STA, (indirect),Y, opcode 0x91 (R134). -/
def execStaIzy (zp : Byte) (s : State) : Result := storeTo 0x91#8 (.izy zp) s.a s

/-- STY, zero page,X, opcode 0x94 (R136). -/
def execStyZpx (zp : Byte) (s : State) : Result := storeTo 0x94#8 (.zpx zp) s.y s

/-- STA, zero page,X, opcode 0x95 (R134). -/
def execStaZpx (zp : Byte) (s : State) : Result := storeTo 0x95#8 (.zpx zp) s.a s

/-- STX, zero page,Y, opcode 0x96 (R135). -/
def execStxZpy (zp : Byte) (s : State) : Result := storeTo 0x96#8 (.zpy zp) s.x s

/-- TYA, implied, opcode 0x98 (R140). -/
def execTya (s : State) : Result := finish (cyclesOf s 0x98#8 false) (loadA s.y s)

/-- STA, absolute,Y, opcode 0x99 (R134). -/
def execStaAby (addr : Word) (s : State) : Result := storeTo 0x99#8 (.aby addr) s.a s

/-- TXS, implied, opcode 0x9A (R142). -/
def execTxs (s : State) : Result := finish (cyclesOf s 0x9A#8 false) { s with sp := s.x }

/-- STA, absolute,X, opcode 0x9D (R134). -/
def execStaAbx (addr : Word) (s : State) : Result := storeTo 0x9D#8 (.abx addr) s.a s

/-- LDY, immediate, opcode 0xA0 (R133). -/
def execLdyImm (imm : Byte) (s : State) : Result := readWith 0xA0#8 (.imm imm) loadY s

/-- LDA, (indirect,X), opcode 0xA1 (R131). -/
def execLdaIzx (zp : Byte) (s : State) : Result := readWith 0xA1#8 (.izx zp) loadA s

/-- LDX, immediate, opcode 0xA2 (R132). -/
def execLdxImm (imm : Byte) (s : State) : Result := readWith 0xA2#8 (.imm imm) loadX s

/-- LDY, zero page, opcode 0xA4 (R133). -/
def execLdyZp (zp : Byte) (s : State) : Result := readWith 0xA4#8 (.zp zp) loadY s

/-- LDA, zero page, opcode 0xA5 (R131). -/
def execLdaZp (zp : Byte) (s : State) : Result := readWith 0xA5#8 (.zp zp) loadA s

/-- LDX, zero page, opcode 0xA6 (R132). -/
def execLdxZp (zp : Byte) (s : State) : Result := readWith 0xA6#8 (.zp zp) loadX s

/-- TAY, implied, opcode 0xA8 (R138). -/
def execTay (s : State) : Result := finish (cyclesOf s 0xA8#8 false) (loadY s.a s)

/-- LDA, immediate, opcode 0xA9 (R131). -/
def execLdaImm (imm : Byte) (s : State) : Result := readWith 0xA9#8 (.imm imm) loadA s

/-- TAX, implied, opcode 0xAA (R137). -/
def execTax (s : State) : Result := finish (cyclesOf s 0xAA#8 false) (loadX s.a s)

/-- LDY, absolute, opcode 0xAC (R133). -/
def execLdyAbs (addr : Word) (s : State) : Result := readWith 0xAC#8 (.abs addr) loadY s

/-- LDA, absolute, opcode 0xAD (R131). -/
def execLdaAbs (addr : Word) (s : State) : Result := readWith 0xAD#8 (.abs addr) loadA s

/-- LDX, absolute, opcode 0xAE (R132). -/
def execLdxAbs (addr : Word) (s : State) : Result := readWith 0xAE#8 (.abs addr) loadX s

/-- LDA, (indirect),Y, opcode 0xB1 (R131). -/
def execLdaIzy (zp : Byte) (s : State) : Result := readWith 0xB1#8 (.izy zp) loadA s

/-- LDY, zero page,X, opcode 0xB4 (R133). -/
def execLdyZpx (zp : Byte) (s : State) : Result := readWith 0xB4#8 (.zpx zp) loadY s

/-- LDA, zero page,X, opcode 0xB5 (R131). -/
def execLdaZpx (zp : Byte) (s : State) : Result := readWith 0xB5#8 (.zpx zp) loadA s

/-- LDX, zero page,Y, opcode 0xB6 (R132). -/
def execLdxZpy (zp : Byte) (s : State) : Result := readWith 0xB6#8 (.zpy zp) loadX s

/-- LDA, absolute,Y, opcode 0xB9 (R131). -/
def execLdaAby (addr : Word) (s : State) : Result := readWith 0xB9#8 (.aby addr) loadA s

/-- TSX, implied, opcode 0xBA (R141). -/
def execTsx (s : State) : Result := finish (cyclesOf s 0xBA#8 false) (loadX s.sp s)

/-- LDY, absolute,X, opcode 0xBC (R133). -/
def execLdyAbx (addr : Word) (s : State) : Result := readWith 0xBC#8 (.abx addr) loadY s

/-- LDA, absolute,X, opcode 0xBD (R131). -/
def execLdaAbx (addr : Word) (s : State) : Result := readWith 0xBD#8 (.abx addr) loadA s

/-- LDX, absolute,Y, opcode 0xBE (R132). -/
def execLdxAby (addr : Word) (s : State) : Result := readWith 0xBE#8 (.aby addr) loadX s

end Sys2Proof.Machine
end

