-- ==== Sys2Proof/Machine/Shift.lean ====
section
/-! DEFINITION. Shifts, rotates, increments and decrements (spec/43_shift_incdec.md R180 to R190).
Each meaning runs after the instruction's bytes were fetched: PC is the address of the next instruction. -/

namespace Sys2Proof.Machine

/-- A shift or rotate in accumulator mode: no memory is accessed (R92, R180). -/
def modifyA (op : Byte) (f : Byte → Bool → Shifted) (s : State) : Result :=
  let m := f s.a s.flagC
  finish (cyclesOf s op false) (setZN m.result { s with a := m.result, flagC := m.carry })

/-- ASL, zero page, opcode 0x06 (R181). -/
def execAslZp (zp : Byte) (s : State) : Result := modifyAt 0x06#8 (.zp zp) aslByte setZN s

/-- ASL, accumulator, opcode 0x0A (R181). -/
def execAslAcc (s : State) : Result := modifyA 0x0A#8 aslByte s

/-- ASL, absolute, opcode 0x0E (R181). -/
def execAslAbs (addr : Word) (s : State) : Result := modifyAt 0x0E#8 (.abs addr) aslByte setZN s

/-- ASL, zero page,X, opcode 0x16 (R181). -/
def execAslZpx (zp : Byte) (s : State) : Result := modifyAt 0x16#8 (.zpx zp) aslByte setZN s

/-- ASL, absolute,X, opcode 0x1E (R181). -/
def execAslAbx (addr : Word) (s : State) : Result := modifyAt 0x1E#8 (.abx addr) aslByte setZN s

/-- ROL, zero page, opcode 0x26 (R183). -/
def execRolZp (zp : Byte) (s : State) : Result := modifyAt 0x26#8 (.zp zp) rolByte setZN s

/-- ROL, accumulator, opcode 0x2A (R183). -/
def execRolAcc (s : State) : Result := modifyA 0x2A#8 rolByte s

/-- ROL, absolute, opcode 0x2E (R183). -/
def execRolAbs (addr : Word) (s : State) : Result := modifyAt 0x2E#8 (.abs addr) rolByte setZN s

/-- ROL, zero page,X, opcode 0x36 (R183). -/
def execRolZpx (zp : Byte) (s : State) : Result := modifyAt 0x36#8 (.zpx zp) rolByte setZN s

/-- ROL, absolute,X, opcode 0x3E (R183). -/
def execRolAbx (addr : Word) (s : State) : Result := modifyAt 0x3E#8 (.abx addr) rolByte setZN s

/-- LSR, zero page, opcode 0x46 (R182). -/
def execLsrZp (zp : Byte) (s : State) : Result := modifyAt 0x46#8 (.zp zp) lsrByte setZN s

/-- LSR, accumulator, opcode 0x4A (R182). -/
def execLsrAcc (s : State) : Result := modifyA 0x4A#8 lsrByte s

/-- LSR, absolute, opcode 0x4E (R182). -/
def execLsrAbs (addr : Word) (s : State) : Result := modifyAt 0x4E#8 (.abs addr) lsrByte setZN s

/-- LSR, zero page,X, opcode 0x56 (R182). -/
def execLsrZpx (zp : Byte) (s : State) : Result := modifyAt 0x56#8 (.zpx zp) lsrByte setZN s

/-- LSR, absolute,X, opcode 0x5E (R182). -/
def execLsrAbx (addr : Word) (s : State) : Result := modifyAt 0x5E#8 (.abx addr) lsrByte setZN s

/-- ROR, zero page, opcode 0x66 (R184). -/
def execRorZp (zp : Byte) (s : State) : Result := modifyAt 0x66#8 (.zp zp) rorByte setZN s

/-- ROR, accumulator, opcode 0x6A (R184). -/
def execRorAcc (s : State) : Result := modifyA 0x6A#8 rorByte s

/-- ROR, absolute, opcode 0x6E (R184). -/
def execRorAbs (addr : Word) (s : State) : Result := modifyAt 0x6E#8 (.abs addr) rorByte setZN s

/-- ROR, zero page,X, opcode 0x76 (R184). -/
def execRorZpx (zp : Byte) (s : State) : Result := modifyAt 0x76#8 (.zpx zp) rorByte setZN s

/-- ROR, absolute,X, opcode 0x7E (R184). -/
def execRorAbx (addr : Word) (s : State) : Result := modifyAt 0x7E#8 (.abx addr) rorByte setZN s

/-- DEY, implied, opcode 0x88 (R190). -/
def execDey (s : State) : Result := finish (cyclesOf s 0x88#8 false) (loadY (s.y - 1#8) s)

/-- DEC, zero page, opcode 0xC6 (R186). -/
def execDecZp (zp : Byte) (s : State) : Result := modifyAt 0xC6#8 (.zp zp) decByte setZN s

/-- INY, implied, opcode 0xC8 (R188). -/
def execIny (s : State) : Result := finish (cyclesOf s 0xC8#8 false) (loadY (s.y + 1#8) s)

/-- DEX, implied, opcode 0xCA (R189). -/
def execDex (s : State) : Result := finish (cyclesOf s 0xCA#8 false) (loadX (s.x - 1#8) s)

/-- DEC, absolute, opcode 0xCE (R186). -/
def execDecAbs (addr : Word) (s : State) : Result := modifyAt 0xCE#8 (.abs addr) decByte setZN s

/-- DEC, zero page,X, opcode 0xD6 (R186). -/
def execDecZpx (zp : Byte) (s : State) : Result := modifyAt 0xD6#8 (.zpx zp) decByte setZN s

/-- DEC, absolute,X, opcode 0xDE (R186). -/
def execDecAbx (addr : Word) (s : State) : Result := modifyAt 0xDE#8 (.abx addr) decByte setZN s

/-- INC, zero page, opcode 0xE6 (R185). -/
def execIncZp (zp : Byte) (s : State) : Result := modifyAt 0xE6#8 (.zp zp) incByte setZN s

/-- INX, implied, opcode 0xE8 (R187). -/
def execInx (s : State) : Result := finish (cyclesOf s 0xE8#8 false) (loadX (s.x + 1#8) s)

/-- INC, absolute, opcode 0xEE (R185). -/
def execIncAbs (addr : Word) (s : State) : Result := modifyAt 0xEE#8 (.abs addr) incByte setZN s

/-- INC, zero page,X, opcode 0xF6 (R185). -/
def execIncZpx (zp : Byte) (s : State) : Result := modifyAt 0xF6#8 (.zpx zp) incByte setZN s

/-- INC, absolute,X, opcode 0xFE (R185). -/
def execIncAbx (addr : Word) (s : State) : Result := modifyAt 0xFE#8 (.abx addr) incByte setZN s

end Sys2Proof.Machine
end

