-- ==== Sys2Proof/Machine/Stack.lean ====
section
/-! DEFINITION. The stack instructions (spec/41_stack.md R150 to R154).
Each meaning runs after the instruction's bytes were fetched: PC is the address of the next instruction. -/

namespace Sys2Proof.Machine

/-- PHP, implied, opcode 0x08 (R152). -/
def execPhp (s : State) : Result := finish (cyclesOf s 0x08#8 false) (push (packP true s) s)

/-- PLP, implied, opcode 0x28 (R154). -/
def execPlp (s : State) : Result := finish (cyclesOf s 0x28#8 false) (unpackP (pull s).1 (pull s).2)

/-- PHA, implied, opcode 0x48 (R151). -/
def execPha (s : State) : Result := finish (cyclesOf s 0x48#8 false) (push s.a s)

/-- PLA, implied, opcode 0x68 (R153). -/
def execPla (s : State) : Result := finish (cyclesOf s 0x68#8 false) (loadA (pull s).1 (pull s).2)

end Sys2Proof.Machine
end

