-- ==== Sys2Proof/Machine/Unofficial.lean ====
section
/-! DEFINITION. The unofficial opcodes, the kill opcode and the eight unstable opcodes, which the
spec gives no meaning (spec/46_unofficial.md R240 to R262; UNSTABLE_OPCODE_POLICY = refuse, log 6).
Each meaning runs after the instruction's bytes were fetched: PC is the address of the next instruction. -/

namespace Sys2Proof.Machine

/-- Load A and X with the same byte (R246). -/
def loadAX (v : Byte) (s : State) : State := setZN v { s with a := v, x := v }

/-- AND, then copy N into C (R249). -/
def ancA (m : Byte) (s : State) : State := { andA m s with flagC := (s.a &&& m).getLsbD 7 }

/-- AND, then shift A right (R250). -/
def alrA (m : Byte) (s : State) : State :=
  let r := lsrByte (s.a &&& m) s.flagC
  setZN r.result { s with a := r.result, flagC := r.carry }

/-- AND, then rotate A right, with C from bit 6 of the result and V from bits 6 and 5 (R251). -/
def arrA (m : Byte) (s : State) : State :=
  let r := (rorByte (s.a &&& m) s.flagC).result
  setZN r { s with a := r, flagC := r.getLsbD 6, flagV := r.getLsbD 6 ^^ r.getLsbD 5 }

/-- X becomes A AND X less the operand; C as a compare sets it (R252). -/
def axsX (m : Byte) (s : State) : State :=
  let t := s.a &&& s.x
  setZN (t - m) { s with x := t - m, flagC := decide (m.toNat ≤ t.toNat) }

/-- A NOP with a memory operand: the addressing-mode procedure runs, the operand is not read (R256). -/
def locateOnly (op : Byte) (o : Operand) (s : State) : Result :=
  let l := locate o s
  finish (cyclesOf s op l.crossed) l.state

/-- Park PC on the kill opcode itself (R260). -/
def park (s : State) : State := { s with pc := s.pc - 1#16 }

/-- KIL, implied, opcode 0x02 (R260). -/
def execKil02 (s : State) : Result := finish (cyclesOf s 0x02#8 false) (park s)

/-- SLO, (indirect,X), opcode 0x03 (R241). -/
def execSloIzx (zp : Byte) (s : State) : Result := modifyAt 0x03#8 (.izx zp) aslByte oraA s

/-- NOP, zero page, opcode 0x04 (R256). -/
def execNop04 (zp : Byte) (s : State) : Result := locateOnly 0x04#8 (.zp zp) s

/-- SLO, zero page, opcode 0x07 (R241). -/
def execSloZp (zp : Byte) (s : State) : Result := modifyAt 0x07#8 (.zp zp) aslByte oraA s

/-- ANC, immediate, opcode 0x0B (R249). -/
def execAnc0B (imm : Byte) (s : State) : Result := readWith 0x0B#8 (.imm imm) ancA s

/-- NOP, absolute, opcode 0x0C (R256). -/
def execNop0C (addr : Word) (s : State) : Result := locateOnly 0x0C#8 (.abs addr) s

/-- SLO, absolute, opcode 0x0F (R241). -/
def execSloAbs (addr : Word) (s : State) : Result := modifyAt 0x0F#8 (.abs addr) aslByte oraA s

/-- KIL, implied, opcode 0x12 (R260). -/
def execKil12 (s : State) : Result := finish (cyclesOf s 0x12#8 false) (park s)

/-- SLO, (indirect),Y, opcode 0x13 (R241). -/
def execSloIzy (zp : Byte) (s : State) : Result := modifyAt 0x13#8 (.izy zp) aslByte oraA s

/-- NOP, zero page,X, opcode 0x14 (R256). -/
def execNop14 (zp : Byte) (s : State) : Result := locateOnly 0x14#8 (.zpx zp) s

/-- SLO, zero page,X, opcode 0x17 (R241). -/
def execSloZpx (zp : Byte) (s : State) : Result := modifyAt 0x17#8 (.zpx zp) aslByte oraA s

/-- NOP, implied, opcode 0x1A (R254). -/
def execNop1A (s : State) : Result := finish (cyclesOf s 0x1A#8 false) s

/-- SLO, absolute,Y, opcode 0x1B (R241). -/
def execSloAby (addr : Word) (s : State) : Result := modifyAt 0x1B#8 (.aby addr) aslByte oraA s

/-- NOP, absolute,X, opcode 0x1C (R256). -/
def execNop1C (addr : Word) (s : State) : Result := locateOnly 0x1C#8 (.abx addr) s

/-- SLO, absolute,X, opcode 0x1F (R241). -/
def execSloAbx (addr : Word) (s : State) : Result := modifyAt 0x1F#8 (.abx addr) aslByte oraA s

/-- KIL, implied, opcode 0x22 (R260). -/
def execKil22 (s : State) : Result := finish (cyclesOf s 0x22#8 false) (park s)

/-- RLA, (indirect,X), opcode 0x23 (R242). -/
def execRlaIzx (zp : Byte) (s : State) : Result := modifyAt 0x23#8 (.izx zp) rolByte andA s

/-- RLA, zero page, opcode 0x27 (R242). -/
def execRlaZp (zp : Byte) (s : State) : Result := modifyAt 0x27#8 (.zp zp) rolByte andA s

/-- ANC, immediate, opcode 0x2B (R249). -/
def execAnc2B (imm : Byte) (s : State) : Result := readWith 0x2B#8 (.imm imm) ancA s

/-- RLA, absolute, opcode 0x2F (R242). -/
def execRlaAbs (addr : Word) (s : State) : Result := modifyAt 0x2F#8 (.abs addr) rolByte andA s

/-- KIL, implied, opcode 0x32 (R260). -/
def execKil32 (s : State) : Result := finish (cyclesOf s 0x32#8 false) (park s)

/-- RLA, (indirect),Y, opcode 0x33 (R242). -/
def execRlaIzy (zp : Byte) (s : State) : Result := modifyAt 0x33#8 (.izy zp) rolByte andA s

/-- NOP, zero page,X, opcode 0x34 (R256). -/
def execNop34 (zp : Byte) (s : State) : Result := locateOnly 0x34#8 (.zpx zp) s

/-- RLA, zero page,X, opcode 0x37 (R242). -/
def execRlaZpx (zp : Byte) (s : State) : Result := modifyAt 0x37#8 (.zpx zp) rolByte andA s

/-- NOP, implied, opcode 0x3A (R254). -/
def execNop3A (s : State) : Result := finish (cyclesOf s 0x3A#8 false) s

/-- RLA, absolute,Y, opcode 0x3B (R242). -/
def execRlaAby (addr : Word) (s : State) : Result := modifyAt 0x3B#8 (.aby addr) rolByte andA s

/-- NOP, absolute,X, opcode 0x3C (R256). -/
def execNop3C (addr : Word) (s : State) : Result := locateOnly 0x3C#8 (.abx addr) s

/-- RLA, absolute,X, opcode 0x3F (R242). -/
def execRlaAbx (addr : Word) (s : State) : Result := modifyAt 0x3F#8 (.abx addr) rolByte andA s

/-- KIL, implied, opcode 0x42 (R260). -/
def execKil42 (s : State) : Result := finish (cyclesOf s 0x42#8 false) (park s)

/-- SRE, (indirect,X), opcode 0x43 (R243). -/
def execSreIzx (zp : Byte) (s : State) : Result := modifyAt 0x43#8 (.izx zp) lsrByte eorA s

/-- NOP, zero page, opcode 0x44 (R256). -/
def execNop44 (zp : Byte) (s : State) : Result := locateOnly 0x44#8 (.zp zp) s

/-- SRE, zero page, opcode 0x47 (R243). -/
def execSreZp (zp : Byte) (s : State) : Result := modifyAt 0x47#8 (.zp zp) lsrByte eorA s

/-- ALR, immediate, opcode 0x4B (R250). -/
def execAlr (imm : Byte) (s : State) : Result := readWith 0x4B#8 (.imm imm) alrA s

/-- SRE, absolute, opcode 0x4F (R243). -/
def execSreAbs (addr : Word) (s : State) : Result := modifyAt 0x4F#8 (.abs addr) lsrByte eorA s

/-- KIL, implied, opcode 0x52 (R260). -/
def execKil52 (s : State) : Result := finish (cyclesOf s 0x52#8 false) (park s)

/-- SRE, (indirect),Y, opcode 0x53 (R243). -/
def execSreIzy (zp : Byte) (s : State) : Result := modifyAt 0x53#8 (.izy zp) lsrByte eorA s

/-- NOP, zero page,X, opcode 0x54 (R256). -/
def execNop54 (zp : Byte) (s : State) : Result := locateOnly 0x54#8 (.zpx zp) s

/-- SRE, zero page,X, opcode 0x57 (R243). -/
def execSreZpx (zp : Byte) (s : State) : Result := modifyAt 0x57#8 (.zpx zp) lsrByte eorA s

/-- NOP, implied, opcode 0x5A (R254). -/
def execNop5A (s : State) : Result := finish (cyclesOf s 0x5A#8 false) s

/-- SRE, absolute,Y, opcode 0x5B (R243). -/
def execSreAby (addr : Word) (s : State) : Result := modifyAt 0x5B#8 (.aby addr) lsrByte eorA s

/-- NOP, absolute,X, opcode 0x5C (R256). -/
def execNop5C (addr : Word) (s : State) : Result := locateOnly 0x5C#8 (.abx addr) s

/-- SRE, absolute,X, opcode 0x5F (R243). -/
def execSreAbx (addr : Word) (s : State) : Result := modifyAt 0x5F#8 (.abx addr) lsrByte eorA s

/-- KIL, implied, opcode 0x62 (R260). -/
def execKil62 (s : State) : Result := finish (cyclesOf s 0x62#8 false) (park s)

/-- RRA, (indirect,X), opcode 0x63 (R244). -/
def execRraIzx (zp : Byte) (s : State) : Result := modifyAt 0x63#8 (.izx zp) rorByte adcInto s

/-- NOP, zero page, opcode 0x64 (R256). -/
def execNop64 (zp : Byte) (s : State) : Result := locateOnly 0x64#8 (.zp zp) s

/-- RRA, zero page, opcode 0x67 (R244). -/
def execRraZp (zp : Byte) (s : State) : Result := modifyAt 0x67#8 (.zp zp) rorByte adcInto s

/-- ARR, immediate, opcode 0x6B (R251). -/
def execArr (imm : Byte) (s : State) : Result := readWith 0x6B#8 (.imm imm) arrA s

/-- RRA, absolute, opcode 0x6F (R244). -/
def execRraAbs (addr : Word) (s : State) : Result := modifyAt 0x6F#8 (.abs addr) rorByte adcInto s

/-- KIL, implied, opcode 0x72 (R260). -/
def execKil72 (s : State) : Result := finish (cyclesOf s 0x72#8 false) (park s)

/-- RRA, (indirect),Y, opcode 0x73 (R244). -/
def execRraIzy (zp : Byte) (s : State) : Result := modifyAt 0x73#8 (.izy zp) rorByte adcInto s

/-- NOP, zero page,X, opcode 0x74 (R256). -/
def execNop74 (zp : Byte) (s : State) : Result := locateOnly 0x74#8 (.zpx zp) s

/-- RRA, zero page,X, opcode 0x77 (R244). -/
def execRraZpx (zp : Byte) (s : State) : Result := modifyAt 0x77#8 (.zpx zp) rorByte adcInto s

/-- NOP, implied, opcode 0x7A (R254). -/
def execNop7A (s : State) : Result := finish (cyclesOf s 0x7A#8 false) s

/-- RRA, absolute,Y, opcode 0x7B (R244). -/
def execRraAby (addr : Word) (s : State) : Result := modifyAt 0x7B#8 (.aby addr) rorByte adcInto s

/-- NOP, absolute,X, opcode 0x7C (R256). -/
def execNop7C (addr : Word) (s : State) : Result := locateOnly 0x7C#8 (.abx addr) s

/-- RRA, absolute,X, opcode 0x7F (R244). -/
def execRraAbx (addr : Word) (s : State) : Result := modifyAt 0x7F#8 (.abx addr) rorByte adcInto s

/-- NOP, immediate, opcode 0x80 (R255). The operand byte is not read. -/
def execNop80 (_imm : Byte) (s : State) : Result := finish (cyclesOf s 0x80#8 false) s

/-- NOP, immediate, opcode 0x82 (R255). The operand byte is not read. -/
def execNop82 (_imm : Byte) (s : State) : Result := finish (cyclesOf s 0x82#8 false) s

/-- SAX, (indirect,X), opcode 0x83 (R245). -/
def execSaxIzx (zp : Byte) (s : State) : Result := storeTo 0x83#8 (.izx zp) (s.a &&& s.x) s

/-- SAX, zero page, opcode 0x87 (R245). -/
def execSaxZp (zp : Byte) (s : State) : Result := storeTo 0x87#8 (.zp zp) (s.a &&& s.x) s

/-- NOP, immediate, opcode 0x89 (R255). The operand byte is not read. -/
def execNop89 (_imm : Byte) (s : State) : Result := finish (cyclesOf s 0x89#8 false) s

/-- XAA, immediate, opcode 0x8B (R262). The spec refuses it. -/
def execXaa (_imm : Byte) (_s : State) : Result := .refused (.unstableOpcode 0x8B#8)

/-- SAX, absolute, opcode 0x8F (R245). -/
def execSaxAbs (addr : Word) (s : State) : Result := storeTo 0x8F#8 (.abs addr) (s.a &&& s.x) s

/-- KIL, implied, opcode 0x92 (R260). -/
def execKil92 (s : State) : Result := finish (cyclesOf s 0x92#8 false) (park s)

/-- AHX, (indirect),Y, opcode 0x93 (R262). The spec refuses it. -/
def execAhxIzy (_zp : Byte) (_s : State) : Result := .refused (.unstableOpcode 0x93#8)

/-- SAX, zero page,Y, opcode 0x97 (R245). -/
def execSaxZpy (zp : Byte) (s : State) : Result := storeTo 0x97#8 (.zpy zp) (s.a &&& s.x) s

/-- TAS, absolute,Y, opcode 0x9B (R262). The spec refuses it. -/
def execTas (_addr : Word) (_s : State) : Result := .refused (.unstableOpcode 0x9B#8)

/-- SHY, absolute,X, opcode 0x9C (R262). The spec refuses it. -/
def execShy (_addr : Word) (_s : State) : Result := .refused (.unstableOpcode 0x9C#8)

/-- SHX, absolute,Y, opcode 0x9E (R262). The spec refuses it. -/
def execShx (_addr : Word) (_s : State) : Result := .refused (.unstableOpcode 0x9E#8)

/-- AHX, absolute,Y, opcode 0x9F (R262). The spec refuses it. -/
def execAhxAby (_addr : Word) (_s : State) : Result := .refused (.unstableOpcode 0x9F#8)

/-- LAX, (indirect,X), opcode 0xA3 (R246). -/
def execLaxIzx (zp : Byte) (s : State) : Result := readWith 0xA3#8 (.izx zp) loadAX s

/-- LAX, zero page, opcode 0xA7 (R246). -/
def execLaxZp (zp : Byte) (s : State) : Result := readWith 0xA7#8 (.zp zp) loadAX s

/-- LXA, immediate, opcode 0xAB (R262). The spec refuses it. -/
def execLxa (_imm : Byte) (_s : State) : Result := .refused (.unstableOpcode 0xAB#8)

/-- LAX, absolute, opcode 0xAF (R246). -/
def execLaxAbs (addr : Word) (s : State) : Result := readWith 0xAF#8 (.abs addr) loadAX s

/-- KIL, implied, opcode 0xB2 (R260). -/
def execKilB2 (s : State) : Result := finish (cyclesOf s 0xB2#8 false) (park s)

/-- LAX, (indirect),Y, opcode 0xB3 (R246). -/
def execLaxIzy (zp : Byte) (s : State) : Result := readWith 0xB3#8 (.izy zp) loadAX s

/-- LAX, zero page,Y, opcode 0xB7 (R246). -/
def execLaxZpy (zp : Byte) (s : State) : Result := readWith 0xB7#8 (.zpy zp) loadAX s

/-- LAS, absolute,Y, opcode 0xBB (R262). The spec refuses it. -/
def execLas (_addr : Word) (_s : State) : Result := .refused (.unstableOpcode 0xBB#8)

/-- LAX, absolute,Y, opcode 0xBF (R246). -/
def execLaxAby (addr : Word) (s : State) : Result := readWith 0xBF#8 (.aby addr) loadAX s

/-- NOP, immediate, opcode 0xC2 (R255). The operand byte is not read. -/
def execNopC2 (_imm : Byte) (s : State) : Result := finish (cyclesOf s 0xC2#8 false) s

/-- DCP, (indirect,X), opcode 0xC3 (R247). -/
def execDcpIzx (zp : Byte) (s : State) : Result := modifyAt 0xC3#8 (.izx zp) decByte cmpA s

/-- DCP, zero page, opcode 0xC7 (R247). -/
def execDcpZp (zp : Byte) (s : State) : Result := modifyAt 0xC7#8 (.zp zp) decByte cmpA s

/-- AXS, immediate, opcode 0xCB (R252). -/
def execAxs (imm : Byte) (s : State) : Result := readWith 0xCB#8 (.imm imm) axsX s

/-- DCP, absolute, opcode 0xCF (R247). -/
def execDcpAbs (addr : Word) (s : State) : Result := modifyAt 0xCF#8 (.abs addr) decByte cmpA s

/-- KIL, implied, opcode 0xD2 (R260). -/
def execKilD2 (s : State) : Result := finish (cyclesOf s 0xD2#8 false) (park s)

/-- DCP, (indirect),Y, opcode 0xD3 (R247). -/
def execDcpIzy (zp : Byte) (s : State) : Result := modifyAt 0xD3#8 (.izy zp) decByte cmpA s

/-- NOP, zero page,X, opcode 0xD4 (R256). -/
def execNopD4 (zp : Byte) (s : State) : Result := locateOnly 0xD4#8 (.zpx zp) s

/-- DCP, zero page,X, opcode 0xD7 (R247). -/
def execDcpZpx (zp : Byte) (s : State) : Result := modifyAt 0xD7#8 (.zpx zp) decByte cmpA s

/-- NOP, implied, opcode 0xDA (R254). -/
def execNopDA (s : State) : Result := finish (cyclesOf s 0xDA#8 false) s

/-- DCP, absolute,Y, opcode 0xDB (R247). -/
def execDcpAby (addr : Word) (s : State) : Result := modifyAt 0xDB#8 (.aby addr) decByte cmpA s

/-- NOP, absolute,X, opcode 0xDC (R256). -/
def execNopDC (addr : Word) (s : State) : Result := locateOnly 0xDC#8 (.abx addr) s

/-- DCP, absolute,X, opcode 0xDF (R247). -/
def execDcpAbx (addr : Word) (s : State) : Result := modifyAt 0xDF#8 (.abx addr) decByte cmpA s

/-- NOP, immediate, opcode 0xE2 (R255). The operand byte is not read. -/
def execNopE2 (_imm : Byte) (s : State) : Result := finish (cyclesOf s 0xE2#8 false) s

/-- ISC, (indirect,X), opcode 0xE3 (R248). -/
def execIscIzx (zp : Byte) (s : State) : Result := modifyAt 0xE3#8 (.izx zp) incByte sbcInto s

/-- ISC, zero page, opcode 0xE7 (R248). -/
def execIscZp (zp : Byte) (s : State) : Result := modifyAt 0xE7#8 (.zp zp) incByte sbcInto s

/-- SBC, immediate, opcode 0xEB (R253). -/
def execSbcEB (imm : Byte) (s : State) : Result := readWith 0xEB#8 (.imm imm) sbcInto s

/-- ISC, absolute, opcode 0xEF (R248). -/
def execIscAbs (addr : Word) (s : State) : Result := modifyAt 0xEF#8 (.abs addr) incByte sbcInto s

/-- KIL, implied, opcode 0xF2 (R260). -/
def execKilF2 (s : State) : Result := finish (cyclesOf s 0xF2#8 false) (park s)

/-- ISC, (indirect),Y, opcode 0xF3 (R248). -/
def execIscIzy (zp : Byte) (s : State) : Result := modifyAt 0xF3#8 (.izy zp) incByte sbcInto s

/-- NOP, zero page,X, opcode 0xF4 (R256). -/
def execNopF4 (zp : Byte) (s : State) : Result := locateOnly 0xF4#8 (.zpx zp) s

/-- ISC, zero page,X, opcode 0xF7 (R248). -/
def execIscZpx (zp : Byte) (s : State) : Result := modifyAt 0xF7#8 (.zpx zp) incByte sbcInto s

/-- NOP, implied, opcode 0xFA (R254). -/
def execNopFA (s : State) : Result := finish (cyclesOf s 0xFA#8 false) s

/-- ISC, absolute,Y, opcode 0xFB (R248). -/
def execIscAby (addr : Word) (s : State) : Result := modifyAt 0xFB#8 (.aby addr) incByte sbcInto s

/-- NOP, absolute,X, opcode 0xFC (R256). -/
def execNopFC (addr : Word) (s : State) : Result := locateOnly 0xFC#8 (.abx addr) s

/-- ISC, absolute,X, opcode 0xFF (R248). -/
def execIscAbx (addr : Word) (s : State) : Result := modifyAt 0xFF#8 (.abx addr) incByte sbcInto s

end Sys2Proof.Machine
end

