-- ==== Sys2Proof/Machine/Dispatch.lean ====
section
/-! DEFINITION. The meaning of every instruction: one arm per constructor of Instr. -/

namespace Sys2Proof.Machine

/-- Run an instruction whose bytes were fetched. -/
def exec (i : Instr) (s : State) : Host.Outcome State Fault Refusal :=
  match i with
  | .oraIzx zp => Sys2Proof.Machine.execOraIzx zp s
  | .sloIzx zp => Sys2Proof.Machine.execSloIzx zp s
  | .nop04 zp => Sys2Proof.Machine.execNop04 zp s
  | .oraZp zp => Sys2Proof.Machine.execOraZp zp s
  | .aslZp zp => Sys2Proof.Machine.execAslZp zp s
  | .sloZp zp => Sys2Proof.Machine.execSloZp zp s
  | .oraImm imm => Sys2Proof.Machine.execOraImm imm s
  | .anc0B imm => Sys2Proof.Machine.execAnc0B imm s
  | .nop0C addr => Sys2Proof.Machine.execNop0C addr s
  | .oraAbs addr => Sys2Proof.Machine.execOraAbs addr s
  | .aslAbs addr => Sys2Proof.Machine.execAslAbs addr s
  | .sloAbs addr => Sys2Proof.Machine.execSloAbs addr s
  | .bpl off => Sys2Proof.Machine.execBpl off s
  | .oraIzy zp => Sys2Proof.Machine.execOraIzy zp s
  | .sloIzy zp => Sys2Proof.Machine.execSloIzy zp s
  | .nop14 zp => Sys2Proof.Machine.execNop14 zp s
  | .oraZpx zp => Sys2Proof.Machine.execOraZpx zp s
  | .aslZpx zp => Sys2Proof.Machine.execAslZpx zp s
  | .sloZpx zp => Sys2Proof.Machine.execSloZpx zp s
  | .oraAby addr => Sys2Proof.Machine.execOraAby addr s
  | .sloAby addr => Sys2Proof.Machine.execSloAby addr s
  | .nop1C addr => Sys2Proof.Machine.execNop1C addr s
  | .oraAbx addr => Sys2Proof.Machine.execOraAbx addr s
  | .aslAbx addr => Sys2Proof.Machine.execAslAbx addr s
  | .sloAbx addr => Sys2Proof.Machine.execSloAbx addr s
  | .jsr addr => Sys2Proof.Machine.execJsr addr s
  | .andIzx zp => Sys2Proof.Machine.execAndIzx zp s
  | .rlaIzx zp => Sys2Proof.Machine.execRlaIzx zp s
  | .bitZp zp => Sys2Proof.Machine.execBitZp zp s
  | .andZp zp => Sys2Proof.Machine.execAndZp zp s
  | .rolZp zp => Sys2Proof.Machine.execRolZp zp s
  | .rlaZp zp => Sys2Proof.Machine.execRlaZp zp s
  | .andImm imm => Sys2Proof.Machine.execAndImm imm s
  | .anc2B imm => Sys2Proof.Machine.execAnc2B imm s
  | .bitAbs addr => Sys2Proof.Machine.execBitAbs addr s
  | .andAbs addr => Sys2Proof.Machine.execAndAbs addr s
  | .rolAbs addr => Sys2Proof.Machine.execRolAbs addr s
  | .rlaAbs addr => Sys2Proof.Machine.execRlaAbs addr s
  | .bmi off => Sys2Proof.Machine.execBmi off s
  | .andIzy zp => Sys2Proof.Machine.execAndIzy zp s
  | .rlaIzy zp => Sys2Proof.Machine.execRlaIzy zp s
  | .nop34 zp => Sys2Proof.Machine.execNop34 zp s
  | .andZpx zp => Sys2Proof.Machine.execAndZpx zp s
  | .rolZpx zp => Sys2Proof.Machine.execRolZpx zp s
  | .rlaZpx zp => Sys2Proof.Machine.execRlaZpx zp s
  | .andAby addr => Sys2Proof.Machine.execAndAby addr s
  | .rlaAby addr => Sys2Proof.Machine.execRlaAby addr s
  | .nop3C addr => Sys2Proof.Machine.execNop3C addr s
  | .andAbx addr => Sys2Proof.Machine.execAndAbx addr s
  | .rolAbx addr => Sys2Proof.Machine.execRolAbx addr s
  | .rlaAbx addr => Sys2Proof.Machine.execRlaAbx addr s
  | .eorIzx zp => Sys2Proof.Machine.execEorIzx zp s
  | .sreIzx zp => Sys2Proof.Machine.execSreIzx zp s
  | .nop44 zp => Sys2Proof.Machine.execNop44 zp s
  | .eorZp zp => Sys2Proof.Machine.execEorZp zp s
  | .lsrZp zp => Sys2Proof.Machine.execLsrZp zp s
  | .sreZp zp => Sys2Proof.Machine.execSreZp zp s
  | .eorImm imm => Sys2Proof.Machine.execEorImm imm s
  | .alr imm => Sys2Proof.Machine.execAlr imm s
  | .jmpAbs addr => Sys2Proof.Machine.execJmpAbs addr s
  | .eorAbs addr => Sys2Proof.Machine.execEorAbs addr s
  | .lsrAbs addr => Sys2Proof.Machine.execLsrAbs addr s
  | .sreAbs addr => Sys2Proof.Machine.execSreAbs addr s
  | .bvc off => Sys2Proof.Machine.execBvc off s
  | .eorIzy zp => Sys2Proof.Machine.execEorIzy zp s
  | .sreIzy zp => Sys2Proof.Machine.execSreIzy zp s
  | .nop54 zp => Sys2Proof.Machine.execNop54 zp s
  | .eorZpx zp => Sys2Proof.Machine.execEorZpx zp s
  | .lsrZpx zp => Sys2Proof.Machine.execLsrZpx zp s
  | .sreZpx zp => Sys2Proof.Machine.execSreZpx zp s
  | .eorAby addr => Sys2Proof.Machine.execEorAby addr s
  | .sreAby addr => Sys2Proof.Machine.execSreAby addr s
  | .nop5C addr => Sys2Proof.Machine.execNop5C addr s
  | .eorAbx addr => Sys2Proof.Machine.execEorAbx addr s
  | .lsrAbx addr => Sys2Proof.Machine.execLsrAbx addr s
  | .sreAbx addr => Sys2Proof.Machine.execSreAbx addr s
  | .adcIzx zp => Sys2Proof.Machine.execAdcIzx zp s
  | .rraIzx zp => Sys2Proof.Machine.execRraIzx zp s
  | .nop64 zp => Sys2Proof.Machine.execNop64 zp s
  | .adcZp zp => Sys2Proof.Machine.execAdcZp zp s
  | .rorZp zp => Sys2Proof.Machine.execRorZp zp s
  | .rraZp zp => Sys2Proof.Machine.execRraZp zp s
  | .adcImm imm => Sys2Proof.Machine.execAdcImm imm s
  | .arr imm => Sys2Proof.Machine.execArr imm s
  | .jmpInd addr => Sys2Proof.Machine.execJmpInd addr s
  | .adcAbs addr => Sys2Proof.Machine.execAdcAbs addr s
  | .rorAbs addr => Sys2Proof.Machine.execRorAbs addr s
  | .rraAbs addr => Sys2Proof.Machine.execRraAbs addr s
  | .bvs off => Sys2Proof.Machine.execBvs off s
  | .adcIzy zp => Sys2Proof.Machine.execAdcIzy zp s
  | .rraIzy zp => Sys2Proof.Machine.execRraIzy zp s
  | .nop74 zp => Sys2Proof.Machine.execNop74 zp s
  | .adcZpx zp => Sys2Proof.Machine.execAdcZpx zp s
  | .rorZpx zp => Sys2Proof.Machine.execRorZpx zp s
  | .rraZpx zp => Sys2Proof.Machine.execRraZpx zp s
  | .adcAby addr => Sys2Proof.Machine.execAdcAby addr s
  | .rraAby addr => Sys2Proof.Machine.execRraAby addr s
  | .nop7C addr => Sys2Proof.Machine.execNop7C addr s
  | .adcAbx addr => Sys2Proof.Machine.execAdcAbx addr s
  | .rorAbx addr => Sys2Proof.Machine.execRorAbx addr s
  | .rraAbx addr => Sys2Proof.Machine.execRraAbx addr s
  | .nop80 imm => Sys2Proof.Machine.execNop80 imm s
  | .staIzx zp => Sys2Proof.Machine.execStaIzx zp s
  | .nop82 imm => Sys2Proof.Machine.execNop82 imm s
  | .saxIzx zp => Sys2Proof.Machine.execSaxIzx zp s
  | .styZp zp => Sys2Proof.Machine.execStyZp zp s
  | .staZp zp => Sys2Proof.Machine.execStaZp zp s
  | .stxZp zp => Sys2Proof.Machine.execStxZp zp s
  | .saxZp zp => Sys2Proof.Machine.execSaxZp zp s
  | .nop89 imm => Sys2Proof.Machine.execNop89 imm s
  | .xaa imm => Sys2Proof.Machine.execXaa imm s
  | .styAbs addr => Sys2Proof.Machine.execStyAbs addr s
  | .staAbs addr => Sys2Proof.Machine.execStaAbs addr s
  | .stxAbs addr => Sys2Proof.Machine.execStxAbs addr s
  | .saxAbs addr => Sys2Proof.Machine.execSaxAbs addr s
  | .bcc off => Sys2Proof.Machine.execBcc off s
  | .staIzy zp => Sys2Proof.Machine.execStaIzy zp s
  | .ahxIzy zp => Sys2Proof.Machine.execAhxIzy zp s
  | .styZpx zp => Sys2Proof.Machine.execStyZpx zp s
  | .staZpx zp => Sys2Proof.Machine.execStaZpx zp s
  | .stxZpy zp => Sys2Proof.Machine.execStxZpy zp s
  | .saxZpy zp => Sys2Proof.Machine.execSaxZpy zp s
  | .staAby addr => Sys2Proof.Machine.execStaAby addr s
  | .tas addr => Sys2Proof.Machine.execTas addr s
  | .shy addr => Sys2Proof.Machine.execShy addr s
  | .staAbx addr => Sys2Proof.Machine.execStaAbx addr s
  | .shx addr => Sys2Proof.Machine.execShx addr s
  | .ahxAby addr => Sys2Proof.Machine.execAhxAby addr s
  | .ldyImm imm => Sys2Proof.Machine.execLdyImm imm s
  | .ldaIzx zp => Sys2Proof.Machine.execLdaIzx zp s
  | .ldxImm imm => Sys2Proof.Machine.execLdxImm imm s
  | .laxIzx zp => Sys2Proof.Machine.execLaxIzx zp s
  | .ldyZp zp => Sys2Proof.Machine.execLdyZp zp s
  | .ldaZp zp => Sys2Proof.Machine.execLdaZp zp s
  | .ldxZp zp => Sys2Proof.Machine.execLdxZp zp s
  | .laxZp zp => Sys2Proof.Machine.execLaxZp zp s
  | .ldaImm imm => Sys2Proof.Machine.execLdaImm imm s
  | .lxa imm => Sys2Proof.Machine.execLxa imm s
  | .ldyAbs addr => Sys2Proof.Machine.execLdyAbs addr s
  | .ldaAbs addr => Sys2Proof.Machine.execLdaAbs addr s
  | .ldxAbs addr => Sys2Proof.Machine.execLdxAbs addr s
  | .laxAbs addr => Sys2Proof.Machine.execLaxAbs addr s
  | .bcs off => Sys2Proof.Machine.execBcs off s
  | .ldaIzy zp => Sys2Proof.Machine.execLdaIzy zp s
  | .laxIzy zp => Sys2Proof.Machine.execLaxIzy zp s
  | .ldyZpx zp => Sys2Proof.Machine.execLdyZpx zp s
  | .ldaZpx zp => Sys2Proof.Machine.execLdaZpx zp s
  | .ldxZpy zp => Sys2Proof.Machine.execLdxZpy zp s
  | .laxZpy zp => Sys2Proof.Machine.execLaxZpy zp s
  | .ldaAby addr => Sys2Proof.Machine.execLdaAby addr s
  | .las addr => Sys2Proof.Machine.execLas addr s
  | .ldyAbx addr => Sys2Proof.Machine.execLdyAbx addr s
  | .ldaAbx addr => Sys2Proof.Machine.execLdaAbx addr s
  | .ldxAby addr => Sys2Proof.Machine.execLdxAby addr s
  | .laxAby addr => Sys2Proof.Machine.execLaxAby addr s
  | .cpyImm imm => Sys2Proof.Machine.execCpyImm imm s
  | .cmpIzx zp => Sys2Proof.Machine.execCmpIzx zp s
  | .nopC2 imm => Sys2Proof.Machine.execNopC2 imm s
  | .dcpIzx zp => Sys2Proof.Machine.execDcpIzx zp s
  | .cpyZp zp => Sys2Proof.Machine.execCpyZp zp s
  | .cmpZp zp => Sys2Proof.Machine.execCmpZp zp s
  | .decZp zp => Sys2Proof.Machine.execDecZp zp s
  | .dcpZp zp => Sys2Proof.Machine.execDcpZp zp s
  | .cmpImm imm => Sys2Proof.Machine.execCmpImm imm s
  | .axs imm => Sys2Proof.Machine.execAxs imm s
  | .cpyAbs addr => Sys2Proof.Machine.execCpyAbs addr s
  | .cmpAbs addr => Sys2Proof.Machine.execCmpAbs addr s
  | .decAbs addr => Sys2Proof.Machine.execDecAbs addr s
  | .dcpAbs addr => Sys2Proof.Machine.execDcpAbs addr s
  | .bne off => Sys2Proof.Machine.execBne off s
  | .cmpIzy zp => Sys2Proof.Machine.execCmpIzy zp s
  | .dcpIzy zp => Sys2Proof.Machine.execDcpIzy zp s
  | .nopD4 zp => Sys2Proof.Machine.execNopD4 zp s
  | .cmpZpx zp => Sys2Proof.Machine.execCmpZpx zp s
  | .decZpx zp => Sys2Proof.Machine.execDecZpx zp s
  | .dcpZpx zp => Sys2Proof.Machine.execDcpZpx zp s
  | .cmpAby addr => Sys2Proof.Machine.execCmpAby addr s
  | .dcpAby addr => Sys2Proof.Machine.execDcpAby addr s
  | .nopDC addr => Sys2Proof.Machine.execNopDC addr s
  | .cmpAbx addr => Sys2Proof.Machine.execCmpAbx addr s
  | .decAbx addr => Sys2Proof.Machine.execDecAbx addr s
  | .dcpAbx addr => Sys2Proof.Machine.execDcpAbx addr s
  | .cpxImm imm => Sys2Proof.Machine.execCpxImm imm s
  | .sbcIzx zp => Sys2Proof.Machine.execSbcIzx zp s
  | .nopE2 imm => Sys2Proof.Machine.execNopE2 imm s
  | .iscIzx zp => Sys2Proof.Machine.execIscIzx zp s
  | .cpxZp zp => Sys2Proof.Machine.execCpxZp zp s
  | .sbcZp zp => Sys2Proof.Machine.execSbcZp zp s
  | .incZp zp => Sys2Proof.Machine.execIncZp zp s
  | .iscZp zp => Sys2Proof.Machine.execIscZp zp s
  | .sbcImm imm => Sys2Proof.Machine.execSbcImm imm s
  | .sbcEB imm => Sys2Proof.Machine.execSbcEB imm s
  | .cpxAbs addr => Sys2Proof.Machine.execCpxAbs addr s
  | .sbcAbs addr => Sys2Proof.Machine.execSbcAbs addr s
  | .incAbs addr => Sys2Proof.Machine.execIncAbs addr s
  | .iscAbs addr => Sys2Proof.Machine.execIscAbs addr s
  | .beq off => Sys2Proof.Machine.execBeq off s
  | .sbcIzy zp => Sys2Proof.Machine.execSbcIzy zp s
  | .iscIzy zp => Sys2Proof.Machine.execIscIzy zp s
  | .nopF4 zp => Sys2Proof.Machine.execNopF4 zp s
  | .sbcZpx zp => Sys2Proof.Machine.execSbcZpx zp s
  | .incZpx zp => Sys2Proof.Machine.execIncZpx zp s
  | .iscZpx zp => Sys2Proof.Machine.execIscZpx zp s
  | .sbcAby addr => Sys2Proof.Machine.execSbcAby addr s
  | .iscAby addr => Sys2Proof.Machine.execIscAby addr s
  | .nopFC addr => Sys2Proof.Machine.execNopFC addr s
  | .sbcAbx addr => Sys2Proof.Machine.execSbcAbx addr s
  | .incAbx addr => Sys2Proof.Machine.execIncAbx addr s
  | .iscAbx addr => Sys2Proof.Machine.execIscAbx addr s
  | .brk => Sys2Proof.Machine.execBrk s
  | .kil02 => Sys2Proof.Machine.execKil02 s
  | .php => Sys2Proof.Machine.execPhp s
  | .aslAcc => Sys2Proof.Machine.execAslAcc s
  | .kil12 => Sys2Proof.Machine.execKil12 s
  | .clc => Sys2Proof.Machine.execClc s
  | .nop1A => Sys2Proof.Machine.execNop1A s
  | .kil22 => Sys2Proof.Machine.execKil22 s
  | .plp => Sys2Proof.Machine.execPlp s
  | .rolAcc => Sys2Proof.Machine.execRolAcc s
  | .kil32 => Sys2Proof.Machine.execKil32 s
  | .sec => Sys2Proof.Machine.execSec s
  | .nop3A => Sys2Proof.Machine.execNop3A s
  | .rti => Sys2Proof.Machine.execRti s
  | .kil42 => Sys2Proof.Machine.execKil42 s
  | .pha => Sys2Proof.Machine.execPha s
  | .lsrAcc => Sys2Proof.Machine.execLsrAcc s
  | .kil52 => Sys2Proof.Machine.execKil52 s
  | .cli => Sys2Proof.Machine.execCli s
  | .nop5A => Sys2Proof.Machine.execNop5A s
  | .rts => Sys2Proof.Machine.execRts s
  | .kil62 => Sys2Proof.Machine.execKil62 s
  | .pla => Sys2Proof.Machine.execPla s
  | .rorAcc => Sys2Proof.Machine.execRorAcc s
  | .kil72 => Sys2Proof.Machine.execKil72 s
  | .sei => Sys2Proof.Machine.execSei s
  | .nop7A => Sys2Proof.Machine.execNop7A s
  | .dey => Sys2Proof.Machine.execDey s
  | .txa => Sys2Proof.Machine.execTxa s
  | .kil92 => Sys2Proof.Machine.execKil92 s
  | .tya => Sys2Proof.Machine.execTya s
  | .txs => Sys2Proof.Machine.execTxs s
  | .tay => Sys2Proof.Machine.execTay s
  | .tax => Sys2Proof.Machine.execTax s
  | .kilB2 => Sys2Proof.Machine.execKilB2 s
  | .clv => Sys2Proof.Machine.execClv s
  | .tsx => Sys2Proof.Machine.execTsx s
  | .iny => Sys2Proof.Machine.execIny s
  | .dex => Sys2Proof.Machine.execDex s
  | .kilD2 => Sys2Proof.Machine.execKilD2 s
  | .cld => Sys2Proof.Machine.execCld s
  | .nopDA => Sys2Proof.Machine.execNopDA s
  | .inx => Sys2Proof.Machine.execInx s
  | .nop => Sys2Proof.Machine.execNop s
  | .kilF2 => Sys2Proof.Machine.execKilF2 s
  | .sed => Sys2Proof.Machine.execSed s
  | .nopFA => Sys2Proof.Machine.execNopFA s

end Sys2Proof.Machine
end

