-- ==== Sys2Proof/Machine/Cpu.lean ====
section
/-! DEFINITION. Fetching an instruction, recognising interrupts, and one processor cycle of the CPU
(spec/60_exceptions.md R300 to R305; spec/20_memory.md R63). -/

namespace Sys2Proof.Machine

/-- `fetch()`: read the byte at PC and advance PC modulo 65536 (R8, R26). -/
def fetchByte (s : State) : Byte × State :=
  let r := busRead s s.pc
  (r.1, { r.2 with pc := r.2.pc + 1#16 })

/-- Pass over the byte at PC without a bus read. -/
def skipByte (s : State) : Byte × State := (busPeek s s.pc, { s with pc := s.pc + 1#16 })

/-- The unofficial immediate NOPs, whose operand byte is not read (R255; log 7). -/
def operandUnread (op : Byte) : Bool :=
  op == 0x80#8 || op == 0x82#8 || op == 0x89#8 || op == 0xC2#8 || op == 0xE2#8

/-- Fetch the instruction at PC: the opcode byte, then its operand bytes at ascending addresses
(R63, R90, R106).  PC is left at the next instruction. -/
def fetchInstr (s : State) : Instr × State :=
  let r0 := fetchByte s
  match rowOf r0.1 with
  | .one i => (i, r0.2)
  | .two mk =>
    let r1 := if operandUnread r0.1 then skipByte r0.2 else fetchByte r0.2
    (mk r1.1, r1.2)
  | .three mk =>
    let r1 := fetchByte r0.2
    let r2 := fetchByte r1.2
    (mk (wordOf r1.1 r2.1), r2.2)

/-- NMI service: the latch is cleared and vector 0xFFFA taken (R304). -/
def serviceNmi (s : State) : State := interruptEntry nmiVector false s.pc { s with nmiPending := false }

/-- IRQ service: vector 0xFFFE, the level stays (R305). -/
def serviceIrq (s : State) : State := interruptEntry irqVector false s.pc s

/-- An IRQ is recognised at an instruction boundary (R303, R305). -/
def irqTaken (s : State) : Bool := s.irqPending && !s.flagI

/-- What happens at an instruction boundary: NMI, else an unmasked IRQ, else the instruction at PC
(R300, R303, R311). -/
def startInstruction (s : State) : Result :=
  if s.nmiPending then .next (serviceNmi s)
  else if irqTaken s then .next (serviceIrq s)
  else
    let f := fetchInstr s
    exec f.1 f.2

/-- One processor cycle of the CPU: all work of an instruction in its first cycle, then waiting
(R300 to R302). -/
def cpuStep (s : State) : Result :=
  thenDo (if s.cyclesRemaining = 0 then startInstruction s else .next s) fun t =>
    { t with cyclesRemaining := t.cyclesRemaining - 1 }

end Sys2Proof.Machine
end

