-- ==== Sys2Proof/Machine/Coordinator.lean ====
section
/-! DEFINITION. The coordinator: controller latching, the IRQ level, OAM DMA, and the order of the agents
in one master cycle (spec/61_bus_dma_coordinator.md R340 to R366). -/

namespace Sys2Proof.Machine

/-- The three IRQ sources, ORed (R310, R361). -/
def irqSources (s : State) : Bool := cartIrq s.cart || s.apu.dmcIrq || s.apu.frameIrq

/-- Copy the held buttons to the shift register while the strobe is 1 (R347). -/
def Port.latch (strobe : Bool) (p : Port) : Port := if strobe then { p with latched := p.current } else p

/-- The start of a processor cycle: controllers are latched and the IRQ level is recomputed
(R347, R361). -/
def beginProcessorCycle (s : State) : State :=
  { s with
    port1 := s.port1.latch s.strobe
    port2 := s.port2.latch s.strobe
    irqPending := irqSources s }

/-- The address of the byte a DMA cycle reads (R351). -/
def dmaAddress (s : State) : Word := wordOf (BitVec.ofNat 8 ((s.dmaCounter - 2) / 2)) s.dmaPage

/-- The bus work of a DMA cycle: idle, a read, or a write to the OAM data port (R351). -/
def dmaTransfer (s : State) : State :=
  if s.dmaCounter < 2 then s
  else if s.dmaCounter % 2 = 0 then
    let r := busRead s (dmaAddress s)
    { r.2 with dmaValue := r.1 }
  else s.withPic (s.pic.writeReg 4#3 s.dmaValue)

/-- `dmaStep()`: one processor cycle of OAM DMA; the last one ends the transfer (R351). -/
def dmaStep (s : State) : State :=
  let t := dmaTransfer s
  if s.dmaCounter + 1 = 514 then { t with inDma := false, dmaCounter := 0 }
  else { t with dmaCounter := s.dmaCounter + 1 }

/-- The mapper's `tick()` (R344, R571). -/
def mapperTick (s : State) : State := { s with cart := s.cart.map Cartridge.tick }

/-- The agents of a processor cycle: the CPU, or the DMA engine in its place, then mapper and audio unit
(R354, R360). -/
def processorCycle (s : State) : Result :=
  let t := beginProcessorCycle s
  thenDo (if t.inDma then .next (dmaStep t) else cpuStep t) fun u => apuStep (mapperTick u)

/-- The picture unit's dot and the count of master cycles, which end every step (R360). -/
def endMasterCycle (s : State) : State :=
  let t := ppuStep s
  { t with masterCycle := t.masterCycle + 1 }

/-- `coordinatorStep()`: one master cycle.  Without a cartridge it is refused (R360, R365). -/
def coordinatorStep (s : State) : Result :=
  match s.cart with
  | none => .refused .noCartridge
  | some _ =>
    thenDo (if s.masterCycle % 3 = 0 then processorCycle s else .next s) endMasterCycle

end Sys2Proof.Machine
end

