-- ==== Sys2Proof/Machine/Placement.lean ====
section
/-! DEFINITION. Placing an instruction where the next step fetches it: the load of a program from outside the
machine, for `State.withFetchWord` (log 3). -/

namespace Sys2Proof.Machine

/-- A smallest valid cartridge: mapper 0, one program bank, character RAM, all program bytes 0
(R520 to R522). -/
def blankCartridge : Cartridge :=
  { header :=
      { prgBanks := 1, chrBanks := 0, verticalMirroring := false, battery := false, trainer := false,
        fourScreen := false, mapperId := 0#8 }
    image := [(0, 0x4E#8), (1, 0x45#8), (2, 0x53#8), (3, 0x1A#8), (4, 0x01#8)]
    size := 0x4010
    prgRam := [], chrRam := [], ntRam := [], regs := .variantA }

/-- The same registers with no interrupt of variant D. -/
def MapperRegs.silenceIrq : MapperRegs → MapperRegs
  | .variantD r => .variantD { r with mapperIrq := false }
  | m => m

/-- A state at a processor cycle and instruction boundary, with a cartridge, no DMA in progress and no
interrupt about to be taken. -/
def State.atBoundary (s : State) : State :=
  let c := s.cart.getD blankCartridge
  { s with
    cart := some (if s.flagI then c else { c with regs := c.regs.silenceIrq })
    apu := if s.flagI then s.apu else { s.apu with frameIrq := false, dmcIrq := false }
    nmiPending := false
    cyclesRemaining := 0
    inDma := false
    masterCycle := (s.masterCycle + 2) / 3 * 3 }

/-- An address whose byte can be placed: work RAM, answering program RAM, or the image. -/
def Cartridge.placeable (c : Cartridge) (a : Word) : Bool :=
  if a.toNat < 0x2000 then true
  else if a.toNat < 0x6000 then false
  else if a.toNat < 0x8000 then c.regs.prgRamOn
  else decide (1 ≤ c.header.prgBanks)

/-- A byte put into the program RAM or, from 0x8000 on, into the image byte the bank mapping shows. -/
def Cartridge.placeByte (c : Cartridge) (a : Word) (x : Byte) : Cartridge :=
  if a.toNat < 0x8000 then { c with prgRam := Memory.write c.prgRam (a.toNat % 0x2000) x }
  else
    let k := c.header.prgBase + (c.prgOffset a &&& c.header.prgMask)
    { c with image := Memory.write c.image k x }

/-- A byte put at an address: into work RAM or into the cartridge. -/
def placeByte (s : State) (a : Word) (x : Byte) : State :=
  if a.toNat < 0x2000 then { s with ram := Memory.write s.ram (ramIndex a) x }
  else { s with cart := s.cart.map fun c => c.placeByte a x }

/-- Put three bytes at PC and after it. -/
def placeAtPc (s : State) (b0 b1 b2 : Byte) : State :=
  placeByte (placeByte (placeByte s s.pc b0) (s.pc + 1#16) b1) (s.pc + 2#16) b2

/-- The bytes at PC can be placed; otherwise PC moves to 0x0200, in work RAM. -/
def State.fetchable (s : State) : State :=
  let ok (c : Cartridge) : Bool := c.placeable s.pc && c.placeable (s.pc + 1#16) && c.placeable (s.pc + 2#16)
  match s.cart with
  | none => s
  | some c => if ok c then s else { s with pc := 0x0200#16 }

end Sys2Proof.Machine
end

