-- ==== Sys2Proof/Machine/Step.lean ====
section
/-! DEFINITION. One step of the machine, and a state whose next step runs a given instruction. -/

namespace Sys2Proof.Machine

/-- One step: one master cycle of the coordinator (R340, R360; log 1). -/
def step (s : State) : Host.Outcome State Fault Refusal := coordinatorStep s

/-- The state with the instruction of a table word stored where the next step fetches: its first byte in
bits 7..0, the next in bits 15..8, the third in bits 23..16, the bits from `nbits` on 0 (log 3). -/
def State.withFetchWord (s : State) (nbits w : Nat) : State :=
  let u := w % 2 ^ nbits
  placeAtPc s.atBoundary.fetchable (BitVec.ofNat 8 u) (BitVec.ofNat 8 (u / 256)) (BitVec.ofNat 8 (u / 65536))

end Sys2Proof.Machine
end

