-- ==== Sys2Proof/Machine/HostOps.lean ====
section
/-! DEFINITION. What the host may do to the machine between two steps: load and unload a cartridge, reset,
run to the end of a frame, buttons, frame and sample buffers, saved states, battery RAM
(spec/65_host_interface.md; spec/70_reset_and_hazards.md R600 to R605; spec/64_mappers.md R520 to R528).
They are functions beside the step, never part of it (log 14). -/

/-- The length of the byte sequence that carries a saved state (R586): the spec gives no field order.  A free value,
log 16. -/
opaque Sys2Proof.Config.stateLength : Sys2Proof.Machine.State → Nat

namespace Sys2Proof.Machine

/-! Construction with arguments (R5, R605). -/

/-- The size of a RAM in bytes; nametable RAM at its larger size (R28, R380, R524, R526, R527). -/
def Ram.size : Ram → Nat
  | .work => 0x800
  | .oam => 0x100
  | .palette => 0x20
  | .nametable => 0x1000
  | .character => 0x2000
  | .program => 0x2000

/-- The memory of the contents of one RAM. -/
@[irreducible] def ramOf (contents : Ram → Nat → Byte) (r : Ram) : Memory :=
  Memory.ofBytes 0 ((List.range r.size).map (contents r))

/-- The contents of every RAM, as the memories of the argument POWER_ON_RAM. -/
def powerOnOf (contents : Ram → Nat → Byte) : PowerOn :=
  { work := ramOf contents .work, oam := ramOf contents .oam, palette := ramOf contents .palette
    nametable := ramOf contents .nametable, character := ramOf contents .character
    program := ramOf contents .program }

/-- The machine given other contents of its RAMs as its argument, which the next hard reset puts there
(R5, R37; log 4). -/
def State.withPowerOn (contents : Ram → Nat → Byte) (s : State) : State :=
  s.withArgs { s.args with powerOn := powerOnOf contents }

/-- The machine as constructed with arguments: without a cartridge, its RAMs at POWER_ON_RAM (R605, R37). -/
def State.constructed (a : Arguments) : State :=
  { State.reset with ram := a.powerOn.work, ppu := Ppu.hardReset a.powerOn, args := a }

/-! Reset (R600). -/

/-- The two bytes at the reset vector, low byte first. -/
def resetTarget (s : State) : Word × State := busReadWord s resetVector (resetVector + 1#16)

/-- `reset(hard)` with a cartridge: everything to its reset value, the mapper first, then PC from the reset
vector; a hard reset sets every RAM to POWER_ON_RAM, a soft reset keeps A, X, Y and the RAMs, and any reset the
machine's arguments (R36, R37, R600, R603; logs 4, 9, 12). -/
def resetWith (hard : Bool) (c : Cartridge) (s : State) : State :=
  let t :=
    { State.reset with
      a := if hard then 0#8 else s.a
      x := if hard then 0#8 else s.x
      y := if hard then 0#8 else s.y
      ram := if hard then s.args.powerOn.work else s.ram
      ppu := if hard then Ppu.hardReset s.args.powerOn else Ppu.softReset s.args.softReset s.ppu
      cart := some (c.reset s.args.powerOn hard)
      args := s.args }
  let r := resetTarget t
  { r.2 with pc := r.1 }

/-- `reset(hard)`: it requires a cartridge (R365, R600). -/
def hostReset (hard : Bool) (s : State) : Result :=
  match s.cart with
  | none => .refused .noCartridge
  | some c => .next (resetWith hard c s)

/-! Loading a cartridge (R520 to R522, R590). -/

/-- Why a cartridge load fails (R522, R592; the last by decision D45, log 27). -/
inductive LoadError where
  | bufferTooSmall
  | badMagic
  | truncated
  | unsupportedMapper (mapperId : Byte)
  | badBankCounts
  deriving DecidableEq, Repr

/-- Byte `k` of an image; 0 past its end. -/
def imageByte (rom : List Byte) (k : Nat) : Byte := rom.getD k 0x00#8

/-- The four magic bytes (R520). -/
def magic : List Byte := [0x4E#8, 0x45#8, 0x53#8, 0x1A#8]

/-- The header of an image (R520). -/
def headerOf (rom : List Byte) : Header :=
  let f := imageByte rom 6
  { prgBanks := (imageByte rom 4).toNat
    chrBanks := (imageByte rom 5).toNat
    verticalMirroring := f.getLsbD 0
    battery := f.getLsbD 1
    trainer := f.getLsbD 2
    fourScreen := f.getLsbD 3
    mapperId := (f >>> 4) ||| (imageByte rom 7 &&& 0xF0#8) }

/-- The shortest image with a header: everything the bank counts declare (R522). -/
def Header.minLength (h : Header) : Nat := h.chrBase + 0x2000 * h.chrBanks

/-- The variant of a mapper identifier, with its registers after reset (R528). -/
def variantOf (mapperId : Byte) : Option MapperRegs :=
  if mapperId = 0#8 then some .variantA
  else if mapperId = 1#8 then some (.variantB RegsB.reset)
  else if mapperId = 2#8 then some (.variantC 0#8)
  else if mapperId = 3#8 then some (.cnrom 0#8)
  else if mapperId = 4#8 then some (.variantD RegsD.reset)
  else if mapperId = 7#8 then some (.variantE 0#4 false)
  else none

/-- The powers of two a bank count can be. -/
def bankCounts : List Nat := [1, 2, 4, 8, 16, 32, 64, 128]

/-- The bank counts the masks of R521 need (D45). -/
def Header.countsOk (h : Header) : Bool :=
  bankCounts.contains h.prgBanks && (h.chrBanks == 0 || bankCounts.contains h.chrBanks)

/-- Validate an image and construct its cartridge, its RAMs at POWER_ON_RAM; the tests stand in the order R522
lists them. -/
def cartridgeOf (p : PowerOn) (rom : List Byte) : Except LoadError Cartridge :=
  let h := headerOf rom
  if rom.length < 16 then .error .bufferTooSmall
  else if rom.take 4 ≠ magic then .error .badMagic
  else if rom.length < h.minLength then .error .truncated
  else
    match variantOf h.mapperId with
    | none => .error (.unsupportedMapper h.mapperId)
    | some regs =>
      if h.countsOk then
        .ok { header := h, image := Memory.ofBytes 0 rom, size := rom.length, prgRam := p.program
              chrRam := p.character, ntRam := Memory.below h.ntSize p.nametable, regs := regs }
      else .error .badBankCounts

/-- Load a cartridge: validate, construct the variant, hard reset (R590). -/
def loadCartridge (rom : List Byte) (s : State) : Except LoadError State :=
  match cartridgeOf s.args.powerOn rom with
  | .error e => .error e
  | .ok c => .ok (resetWith true c s)

/-- Unload: the machine is without a cartridge (R591). -/
def unloadCartridge (s : State) : State := { s with cart := none }

/-! Buttons (R583). -/

/-- A controller port number and a button index of the interface. -/
def validButton (port button : Nat) : Bool := (port == 1 || port == 2) && decide (button < 8)

/-- Change the held buttons of a port. -/
def withHeld (port : Nat) (f : Byte → Byte) (s : State) : State :=
  if port = 1 then { s with port1 := { s.port1 with current := f s.port1.current } }
  else { s with port2 := { s.port2 with current := f s.port2.current } }

/-- Press a button; `none` outside the interface (R583; log 28). -/
def press (port button : Nat) (s : State) : Option State :=
  if validButton port button then some (withHeld port (fun b => b ||| (1#8 <<< button)) s) else none

/-- Release a button; `none` outside the interface (R583; log 28). -/
def release (port button : Nat) (s : State) : Option State :=
  if validButton port button then some (withHeld port (fun b => b &&& ~~~(1#8 <<< button)) s) else none

/-! Output. -/

/-- The output pixel at column `x` of row `y` (R582). -/
def framePixel (s : State) (x y : Nat) : BitVec 9 := Cells.read 0#9 s.ppu.frameBuffer (y * 256 + x)

/-- The sample the host reads at an index: the value of MIX, 0 where none was written (R456, R505). -/
def sampleAt (u : Apu) (k : Nat) : Rat :=
  match readSample u.samples k with
  | none => 0
  | some x => x.mix

/-- Collect the samples and set the offset to 0 (R584). -/
def collectSamples (s : State) : List Rat × State :=
  ((List.range s.apu.sampleOffset).map (sampleAt s.apu), { s with apu := { s.apu with sampleOffset := 0 } })

/-! Saved states (R586, R592; log 16). -/

/-- Why a saved state is refused: the six cases of class (c) (R592). -/
inductive StateError where
  | badMagic
  | versionMismatch
  | lengthMismatch
  | cartridgeHashMismatch
  | headerMismatch
  | mapperVersionMismatch
  deriving DecidableEq, Repr

/-- The number of the variant a register set belongs to. -/
def MapperRegs.variant : MapperRegs → Nat
  | .variantA => 0
  | .variantB _ => 1
  | .variantC _ => 2
  | .cnrom _ => 3
  | .variantD _ => 4
  | .variantE _ _ => 7

/-- The preamble of a saved state (R586).  The last three are of the cartridge, `none` without one; `contents`, the
image and its size, stands for the content hash, and `mapperVersion` is the variant with its version (log 16). -/
structure Preamble where
  magic : List Byte
  version : Nat
  length : Nat
  contents : Option (Memory × Nat)
  header : Option Header
  mapperVersion : Option (Nat × Nat)
  deriving DecidableEq, Repr

/-- A saved state as the host hands it over: its preamble, what it carries, and how long it is (R586). -/
structure SavedState where
  preamble : Preamble
  content : State
  size : Nat
  deriving DecidableEq, Repr

/-- What identifies the image of a cartridge. -/
def contentsOf (c : Option Cartridge) : Option (Memory × Nat) := c.map fun c => (c.image, c.size)

/-- The header of a cartridge. -/
def headerIn (c : Option Cartridge) : Option Header := c.map Cartridge.header

/-- The variant of a cartridge and the version of its format. -/
def mapperVersionOf (c : Option Cartridge) : Option (Nat × Nat) :=
  c.map fun c => (c.regs.variant, Config.mapperVersion c.regs.variant)

/-- The preamble of a state (R586). -/
def preambleOf (s : State) : Preamble :=
  { magic := Config.stateMagic, version := Config.stateVersion, length := Config.stateLength s
    contents := contentsOf s.cart, header := headerIn s.cart, mapperVersion := mapperVersionOf s.cart }

/-- `getState`: the whole state, with its preamble (R586). -/
def getState (s : State) : SavedState := { preamble := preambleOf s, content := s, size := Config.stateLength s }

/-- A value of the preamble, or the cartridge carried, disagrees with the cartridge now loaded. -/
def SavedState.differs {α : Type} [DecidableEq α] (saved : SavedState) (s : State) (stored : α)
    (f : Option Cartridge → α) : Bool :=
  decide (stored ≠ f s.cart) || decide (f saved.content.cart ≠ f s.cart)

/-- `setState`: every part of the preamble is tested, in the order R592 lists them, before anything changes; then
the state carried, with the machine's own arguments (R586, R592; logs 12, 16). -/
def setState (saved : SavedState) (s : State) : Except StateError State :=
  let p := saved.preamble
  if p.magic ≠ Config.stateMagic then .error .badMagic
  else if p.version ≠ Config.stateVersion then .error .versionMismatch
  else if p.length ≠ saved.size ∨ saved.size ≠ Config.stateLength saved.content then .error .lengthMismatch
  else if saved.differs s p.contents contentsOf then .error .cartridgeHashMismatch
  else if saved.differs s p.header headerIn then .error .headerMismatch
  else if saved.differs s p.mapperVersion mapperVersionOf then .error .mapperVersionMismatch
  else .ok { saved.content with args := s.args }

/-! Battery RAM (R587; log 26). -/

/-- Why a battery transfer fails: the cartridge has no battery-backed RAM, or the buffer's size is not
8192. -/
inductive BatteryError where
  | noBatteryRam
  | sizeMismatch
  deriving DecidableEq, Repr

/-- The cartridge has battery-backed program RAM (R587). -/
def Cartridge.hasBatteryRam (c : Cartridge) : Bool := c.header.battery && c.regs.hasPrgRam

/-- A copy of the battery RAM (R587). -/
def saveBattery (s : State) : Except BatteryError (List Byte) :=
  match s.cart with
  | none => .error .noBatteryRam
  | some c => if c.hasBatteryRam then .ok (Memory.bytes c.prgRam 0 0x2000) else .error .noBatteryRam

/-- Replace the battery RAM by a buffer of the right length (R587). -/
def loadBattery (buf : List Byte) (s : State) : Except BatteryError State :=
  match s.cart with
  | none => .error .noBatteryRam
  | some c =>
    if c.hasBatteryRam then
      (if buf.length = 0x2000 then .ok { s with cart := some { c with prgRam := Memory.ofBytes 0 buf } }
       else .error .sizeMismatch)
    else .error .noBatteryRam

/-! Running to the end of a frame (R362). -/

/-- The picture unit is at scanline 240, dot 0. -/
def atFrameEnd (s : State) : Bool := s.ppu.scanline == 240 && s.ppu.dot == 0

/-- Step, at most `fuel` times, until a step leaves the picture unit at the end of the frame. -/
def runToFrameEnd : Nat → State → Result
  | 0, s => .next s
  | fuel + 1, s =>
    match coordinatorStep s with
    | .next t => if atFrameEnd t then .next t else runToFrameEnd fuel t
    | .fault e => .fault e
    | .refused e => .refused e

/-- Master cycles in a frame without the odd-frame skip (R363). -/
def frameCycles : Nat := 89342

/-- `runFrame()`: no frame is longer than the fuel given (R362, R363; log 25). -/
def runFrame (s : State) : Result := runToFrameEnd frameCycles s

end Sys2Proof.Machine
end

