-- ==== Sys2Proof/Safety.lean ====
section
/-! DEFINITION. What a safe state of the machine is: every memory in canonical form with indices inside its
size, every counter in the range the spec gives it (spec/10_state.md; spec/62_ppu.md R380, R417;
spec/63_apu.md R450; spec/64_mappers.md R535, R570), what a safe run is, and the words the statements of
Certificates/Slice0/Obligations.lean are written in: plain memory, and the rules' arithmetic on numbers. -/

namespace Sys2Proof.Machine

/-- A memory in canonical form whose indices are below `n`. -/
def Memory.ok (n : Nat) (m : Memory) : Prop := Memory.wf m = true ∧ ∀ c ∈ m, c.1 < n

/-- The picture unit: position and buffer count in range, memories in form (R380, R417). -/
structure Ppu.Ok (p : Ppu) : Prop where
  dot : p.dot ≤ 340
  scanline : p.scanline ≤ 261
  spriteCount : p.spriteCount ≤ 8
  oam : Memory.ok 256 p.oam
  palette : Memory.ok 32 p.palette
  secOam : Memory.ok 32 p.secOam
  sprTileLo : Memory.ok 8 p.sprTileLo
  sprTileHi : Memory.ok 8 p.sprTileHi
  frameBuffer : Cells.wf 0#9 p.frameBuffer = true ∧ ∀ c ∈ p.frameBuffer, c.1 < 61440

/-- A pulse channel in the ranges of R450. -/
structure Pulse.Ok (p : Pulse) : Prop where
  timerValue : p.timerValue ≤ 4095
  length : p.length ≤ 254
  targetLow : -2048 ≤ p.sweepTarget
  targetHigh : p.sweepTarget ≤ 4094

/-- The triangle channel in the ranges of R450. -/
structure Triangle.Ok (c : Triangle) : Prop where
  timerValue : c.timerValue ≤ 2047
  length : c.length ≤ 254

/-- The noise channel in the ranges of R450; its shift register is never 0 (R487). -/
structure Noise.Ok (c : Noise) : Prop where
  timer : c.timer ≤ 4067
  timerValue : c.timerValue ≤ 4067
  length : c.length ≤ 254
  shift : c.shift ≠ 0#15

/-- The DMC channel in the ranges of R450 (its timer is 0 until it is first written, log 21). -/
structure Dmc.Ok (c : Dmc) : Prop where
  timer : c.timer ≤ 427
  timerValue : c.timerValue ≤ 427
  sampleAddress : 0xC000 ≤ c.sampleAddress.toNat ∧ c.sampleAddress.toNat ≤ 0xFFC0
  sampleLength : 1 ≤ c.sampleLength ∧ c.sampleLength ≤ 4081
  address : 0x8000 ≤ c.address.toNat
  bytesLeft : c.bytesLeft ≤ 4081
  bitsLeft : 1 ≤ c.bitsLeft ∧ c.bitsLeft ≤ 8

/-- The audio unit in the ranges of R450. -/
structure Apu.Ok (u : Apu) : Prop where
  frameCounter : u.frameCounter ≤ 37282
  p1 : u.p1.Ok
  p2 : u.p2.Ok
  tri : u.tri.Ok
  noise : u.noise.Ok
  dmc : u.dmc.Ok
  sampleOffset : u.sampleOffset ≤ 29780

/-- A mapper's registers: the write count of variant B is below 5, variant D has eight bank registers
(R535, R555). -/
def MapperRegs.Ok : MapperRegs → Prop
  | .variantB r => r.shiftCount ≤ 4
  | .variantD r => Memory.ok 8 r.bankReg
  | .variantA | .variantC _ | .cnrom _ | .variantE _ _ => True

/-- A cartridge: RAMs in form and of their size, registers in range (R524, R526, R527, R570). -/
structure Cartridge.Ok (c : Cartridge) : Prop where
  image : Memory.wf c.image = true
  prgRam : Memory.ok 0x2000 c.prgRam
  chrRam : Memory.ok 0x2000 c.chrRam
  ntRam : Memory.ok c.header.ntSize c.ntRam
  regs : c.regs.Ok

/-- A cost table in canonical form (opcodes strictly rising, no default row listed) whose rows keep the cost of
every instruction, penalties included, in 2 to 8 (R301): a branch may add two cycles, a marked row one. -/
structure CycleTable.Ok (t : CycleTable) : Prop where
  rising : t.Pairwise fun p q => p.1 < q.1
  opcode : ∀ p ∈ t, p.1 < 256 ∧ p.2 ≠ defaultRow (BitVec.ofNat 8 p.1)
  cost : ∀ p ∈ t, 2 ≤ p.2.base ∧ p.2.base + (if p.1 % 32 = 16 then 2 else carryNat p.2.penalty) ≤ 8

/-- The contents POWER_ON_RAM gives: each memory in form and of its size (R37). -/
structure PowerOn.Ok (p : PowerOn) : Prop where
  work : Memory.ok 0x800 p.work
  oam : Memory.ok 256 p.oam
  palette : Memory.ok 32 p.palette
  nametable : Memory.ok 0x1000 p.nametable
  character : Memory.ok 0x2000 p.character
  program : Memory.ok 0x2000 p.program

/-- The invariant of the machine: every step keeps it (values outside it: log 24). -/
structure State.Inv (s : State) : Prop where
  cyclesRemaining : s.cyclesRemaining ≤ 7
  ram : Memory.ok 0x800 s.ram
  dmaCounter : s.dmaCounter ≤ 513
  ppu : s.ppu.Ok
  apu : s.apu.Ok
  cart : ∀ c, s.cart = some c → c.Ok
  cycleTable : s.args.cycleTable.Ok
  powerOn : s.args.powerOn.Ok

/-- A run of `k` steps is safe when every state it reaches meets the invariant and it does not stop. -/
def SafeRun : Nat → State → Prop
  | 0, s => s.Inv
  | k + 1, s => s.Inv ∧ ∃ t, step s = .next t ∧ SafeRun k t

/-! Memory as the statements speak of it. -/

/-- An address of plain memory: work RAM or the mapper's region, not a device register (R52). -/
def PlainAddress (a : Word) : Prop := a.toNat < 0x2000 ∨ 0x4020 ≤ a.toNat

/-- The addresses whose read changes state: registers 2 and 7 of the picture unit and their mirrors,
0x4015, 0x4016, 0x4017 (R61). -/
def ReadEffectAddress (a : Word) : Prop :=
  (0x2000 ≤ a.toNat ∧ a.toNat < 0x4000 ∧ (a.toNat % 8 = 2 ∨ a.toNat % 8 = 7)) ∨
    a.toNat = 0x4015 ∨ a.toNat = 0x4016 ∨ a.toNat = 0x4017

/-- Two addresses of one cell: equal, or mirrors of each other in work RAM (R53). -/
def SameCell (a b : Word) : Prop :=
  a = b ∨ (a.toNat < 0x2000 ∧ b.toNat < 0x2000 ∧ a.toNat % 0x800 = b.toNat % 0x800)

/-- Program RAM answers at an address: 0x6000 to 0x7FFF, in a cartridge whose variant has it and has not disabled
it (R527, R539, R558). -/
def ProgramRamAddress (s : State) (a : Word) : Prop :=
  0x6000 ≤ a.toNat ∧ a.toNat < 0x8000 ∧ ∃ c, s.cart = some c ∧ c.regs.prgRamOn = true

/-- Every byte of plain memory reads in `t` as it reads in `s`. -/
def PlainMemoryKept (s t : State) : Prop := ∀ a, PlainAddress a → busPeek t a = busPeek s a

/-- The cartridge of `t` has the image, header and variant of that of `s` (R33, R528, R529). -/
def SameImage (s t : State) : Prop :=
  t.cart.map (fun c => (c.header, c.image, c.size, c.regs.variant)) =
    s.cart.map (fun c => (c.header, c.image, c.size, c.regs.variant))

/-! The rules' arithmetic on numbers. -/

/-- Zero and negative of a result byte: its value is 0, its value is 128 or more (R8). -/
def zeroNegative (r : Byte) (s : State) : State :=
  { s with flagZ := decide (r.toNat = 0), flagN := decide (128 ≤ r.toNat) }

/-- Addition as laws (a) and (b) of R160 say it: the sum modulo 256, C its unsigned carry, V when the signed
sum is outside -128 to 127. -/
def addLaw (m : Byte) (s : State) : State :=
  let sum := s.a.toNat + m.toNat + carryNat s.flagC
  let signed : Int := s.a.toInt + m.toInt + carryNat s.flagC
  { s with
    a := BitVec.ofNat 8 (sum % 256)
    flagC := decide (255 < sum)
    flagV := decide (signed < -128 ∨ 127 < signed)
    flagZ := decide (sum % 256 = 0)
    flagN := decide (128 ≤ sum % 256) }

/-- Subtraction as law (c) of R160 says it: `A - m - (1 - C)`, C when there is no borrow, V when the signed
difference is outside -128 to 127. -/
def subtractLaw (m : Byte) (s : State) : State :=
  let diff : Int := (s.a.toNat : Int) - m.toNat - (1 - carryNat s.flagC)
  let signed : Int := s.a.toInt - m.toInt - (1 - carryNat s.flagC)
  { s with
    a := BitVec.ofInt 8 diff
    flagC := decide (0 ≤ diff)
    flagV := decide (signed < -128 ∨ 127 < signed)
    flagZ := decide (diff % 256 = 0)
    flagN := decide (128 ≤ diff % 256) }

/-- Comparison of a register with an operand as R160 says it. -/
def compareLaw (r m : Byte) (s : State) : State :=
  { s with
    flagC := decide (m.toNat ≤ r.toNat)
    flagZ := decide (r.toNat = m.toNat)
    flagN := decide (128 ≤ (r.toNat + 256 - m.toNat) % 256) }

/-! Forms of instructions: the bytes, the constructor they decode to, and the next state. -/

/-- The bytes are exactly one instruction, `i`. -/
def Encodes (bytes : List Byte) (i : Instr) : Prop := decode bytes = .ok (i, [])

/-- The row of an instruction in the machine's cost table: the row listed for its opcode, else the default row
of R109, whose cost and mark are given here (log 12). -/
def rowOr (s : State) (i : Instr) (cycles : Nat) (starred : Bool) : CycleRow :=
  Cells.read { base := cycles, penalty := starred } s.args.cycleTable (opcodeOf i).toNat

/-- The cost of an instruction: that of its row, one more where the row is marked and indexing crossed a page
(R104). -/
def costOr (s : State) (i : Instr) (cycles : Nat) (starred crossed : Bool) : Nat :=
  let r := rowOr s i cycles starred
  r.base + (if r.penalty && crossed then 1 else 0)

/-- An instruction without a memory operand: `f` and the cost. -/
def PlainForm (bytes : List Byte) (i : Instr) (cycles : Nat) (f : State → State) : Prop :=
  Encodes bytes i ∧ ∀ s, exec i s = .next { f s with cyclesRemaining := costOr s i cycles false false }

/-- An instruction that reads its operand byte: `f` of the byte, and the cost. -/
def ReadForm (bytes : List Byte) (i : Instr) (o : Operand) (cycles : Nat) (starred : Bool)
    (f : Byte → State → State) : Prop :=
  Encodes bytes i ∧ ∀ s, exec i s = .next
    { f (readOperand o s).value (readOperand o s).state with
      cyclesRemaining := costOr s i cycles starred (readOperand o s).crossed }

/-- An instruction that stores the byte `v`: one write at the effective address, and the cost. -/
def StoreForm (bytes : List Byte) (i : Instr) (o : Operand) (cycles : Nat) (v : State → Byte) : Prop :=
  Encodes bytes i ∧ ∀ s, exec i s = .next
    { busWrite (locate o s).state (locate o s).ea (v s) with
      cyclesRemaining := costOr s i cycles false (locate o s).crossed }

/-- A read-modify-write instruction: one read and one write at the effective address; `r` is the byte
written and `c` the carry, of the byte read and the old carry; then `f` of the byte written. -/
def ModifyForm (bytes : List Byte) (i : Instr) (o : Operand) (cycles : Nat) (r : Byte → Bool → Byte)
    (c : Byte → Bool → Bool) (f : Byte → State → State) : Prop :=
  Encodes bytes i ∧ ∀ s,
    let l := locate o s
    let v := busPeek l.state l.ea
    let w := r v s.flagC
    exec i s = .next
      { f w { busWrite (afterRead l.state l.ea) l.ea w with flagC := c v s.flagC } with
        cyclesRemaining := costOr s i cycles false l.crossed }

/-! The shifts of R180 on numbers: the result and the carry, of the byte and the old carry. -/

/-- `asl`: twice the value modulo 256. -/
def aslResult (v : Byte) (_ : Bool) : Byte := BitVec.ofNat 8 (2 * v.toNat % 256)

/-- `lsr`: half the value. -/
def lsrResult (v : Byte) (_ : Bool) : Byte := BitVec.ofNat 8 (v.toNat / 2)

/-- `rol`: twice the value plus the old carry, modulo 256. -/
def rolResult (v : Byte) (c : Bool) : Byte := BitVec.ofNat 8 ((2 * v.toNat + carryNat c) % 256)

/-- `ror`: half the value plus 128 for the old carry. -/
def rorResult (v : Byte) (c : Bool) : Byte := BitVec.ofNat 8 (v.toNat / 2 + 128 * carryNat c)

/-- The bit a left shift moves out. -/
def highBit (v : Byte) (_ : Bool) : Bool := decide (128 ≤ v.toNat)

/-- The bit a right shift moves out. -/
def lowBit (v : Byte) (_ : Bool) : Bool := decide (v.toNat % 2 = 1)

/-- One more, modulo 256. -/
def incResult (v : Byte) (_ : Bool) : Byte := BitVec.ofNat 8 ((v.toNat + 1) % 256)

/-- One less, modulo 256. -/
def decResult (v : Byte) (_ : Bool) : Byte := BitVec.ofNat 8 ((v.toNat + 255) % 256)

/-- The carry stays. -/
def sameCarry (_ : Byte) (c : Bool) : Bool := c

/-! The stack, the status byte and the entry sequence on numbers. -/

/-- The stack address of a stack pointer: page 1 (R22). -/
def stackAt (sp : Byte) : Word := BitVec.ofNat 16 (0x100 + sp.toNat)

/-- The pushed status byte `N V 1 b D I Z C` as a number (R23). -/
def statusByte (b : Bool) (s : State) : Byte :=
  BitVec.ofNat 8 (128 * carryNat s.flagN + 64 * carryNat s.flagV + 32 + 16 * carryNat b +
    8 * carryNat s.flagD + 4 * carryNat s.flagI + 2 * carryNat s.flagZ + carryNat s.flagC)

/-- The six flags from bits 7, 6, 3, 2, 1, 0 of a status byte (R23). -/
def loadStatus (p : Byte) (s : State) : State :=
  { s with
    flagN := decide (p.toNat / 128 % 2 = 1)
    flagV := decide (p.toNat / 64 % 2 = 1)
    flagD := decide (p.toNat / 8 % 2 = 1)
    flagI := decide (p.toNat / 4 % 2 = 1)
    flagZ := decide (p.toNat / 2 % 2 = 1)
    flagC := decide (p.toNat % 2 = 1) }

/-- The 16-bit value of two bytes of memory, low byte first (R57). -/
def pairAt (s : State) (lo hi : Word) : Word :=
  BitVec.ofNat 16 ((busPeek s lo).toNat + 256 * (busPeek s hi).toNat)

/-- Two bytes pushed, the high byte of `ret` first (R203, R306). -/
def pushPair (ret : Nat) (s : State) : State :=
  { busWrite (busWrite s (stackAt s.sp) (BitVec.ofNat 8 (ret / 256))) (stackAt (s.sp - 1#8))
      (BitVec.ofNat 8 ret) with sp := s.sp - 2#8 }

/-- The entry sequence of R306: the return address and the status byte are pushed, I is set, PC comes from
the vector. -/
def entryLaw (vector : Word) (ret : Nat) (b : Bool) (s : State) : State :=
  { busWrite (pushPair ret s) (stackAt (s.sp - 2#8)) (statusByte b s) with
    sp := s.sp - 3#8
    flagI := true
    pc := pairAt s vector (vector + 1#16) }

/-- A branch: taken when `cond`, to PC plus the signed offset; the cost of its row (2 by default) when not
taken, one more when taken, two more when the target's page is another than that of PC (R200, R109). -/
def BranchForm (bytes : List Byte) (i : Instr) (off : Byte) (cond : State → Bool) : Prop :=
  Encodes bytes i ∧ ∀ s,
    let target : Word := BitVec.ofInt 16 ((s.pc.toNat : Int) + off.toInt)
    let cost := (rowOr s i 2 false).base
    exec i s = .next
      (if cond s then
        { s with
          pc := target
          cyclesRemaining := if s.pc.toNat / 256 = target.toNat / 256 then cost + 1 else cost + 2 }
       else { s with cyclesRemaining := cost })

/-! The audio registers on numbers: what a write of `x` to register `r` of a channel leaves (R470, R480, R485,
R490). -/

/-- The length table (R472), by bits 7 to 3 of the byte written. -/
def lengthLaw (x : Byte) : Nat :=
  [10, 254, 20, 2, 40, 4, 80, 6, 160, 8, 60, 10, 14, 12, 26, 14,
   12, 16, 24, 18, 48, 20, 96, 22, 192, 24, 72, 26, 16, 28, 32, 30].getD (x.toNat / 8) 0

/-- The low eight bits of a period replaced. -/
def periodLow (x : Byte) (t : BitVec 11) : BitVec 11 := BitVec.ofNat 11 (t.toNat / 256 * 256 + x.toNat)

/-- The high three bits of a period replaced by bits 2 to 0. -/
def periodHigh (x : Byte) (t : BitVec 11) : BitVec 11 := BitVec.ofNat 11 (x.toNat % 8 * 256 + t.toNat % 256)

/-- The envelope fields of a first register: halt, constant volume, volume. -/
def envelopeLaw (x : Byte) (e : Envelope) : Envelope :=
  { e with
    halt := decide (32 ≤ x.toNat % 64), constVol := decide (16 ≤ x.toNat % 32)
    volume := BitVec.ofNat 4 x.toNat }

/-- A write to register `r` of a pulse channel (R470, R465; the envelope restart: log 31). -/
def pulseLaw (first : Bool) (r : Nat) (x : Byte) (p : Pulse) : Pulse :=
  match r with
  | 0 => { p with duty := BitVec.ofNat 2 (x.toNat / 64), env := envelopeLaw x p.env }
  | 1 =>
    Pulse.updateSweep first
      { p with
        sweepEnable := decide (128 ≤ x.toNat), sweepPeriod := BitVec.ofNat 3 (x.toNat / 16)
        sweepNegate := decide (8 ≤ x.toNat % 16), sweepShift := BitVec.ofNat 3 x.toNat, sweepReload := true }
  | 2 => Pulse.updateSweep first { p with timer := periodLow x p.timer }
  | _ =>
    Pulse.updateSweep first
      { p with
        timer := periodHigh x p.timer, dutyIndex := 0#3
        length := if p.enable then lengthLaw x else p.length
        env := { p.env with envStart := true } }

/-- A write to register `r` of the triangle channel (R480; the reload of the linear counter: log 31). -/
def triangleLaw (r : Nat) (x : Byte) (c : Triangle) : Triangle :=
  match r with
  | 0 => { c with halt := decide (128 ≤ x.toNat), linearReloadValue := BitVec.ofNat 7 x.toNat }
  | 1 => c
  | 2 => { c with timer := periodLow x c.timer }
  | _ =>
    { c with
      timer := periodHigh x c.timer
      length := if c.enable then lengthLaw x else c.length
      linearReload := true }

/-- A write to register `r` of the noise channel (R485, R486; the envelope restart: log 31). -/
def noiseLaw (r : Nat) (x : Byte) (c : Noise) : Noise :=
  match r with
  | 0 => { c with env := envelopeLaw x c.env }
  | 1 => c
  | 2 =>
    { c with
      tonal := decide (128 ≤ x.toNat)
      timer :=
        [3, 7, 15, 31, 63, 95, 127, 159, 201, 253, 379, 507, 761, 1015, 2033, 4067].getD (x.toNat % 16) 0 }
  | _ =>
    { c with
      length := if c.enable then lengthLaw x else c.length
      env := { c.env with envStart := true } }

/-- A write to register `r` of the DMC channel (R490, R491). -/
def dmcLaw (r : Nat) (x : Byte) (c : Dmc) : Dmc :=
  match r with
  | 0 =>
    { c with
      irqEnable := decide (128 ≤ x.toNat), loop := decide (64 ≤ x.toNat % 128)
      timer :=
        [427, 379, 339, 319, 285, 253, 225, 213, 189, 159, 141, 127, 105, 83, 71, 53].getD (x.toNat % 16) 0 }
  | 1 => { c with output := BitVec.ofNat 7 x.toNat }
  | 2 => { c with sampleAddress := BitVec.ofNat 16 (0xC000 + 64 * x.toNat) }
  | _ => { c with sampleLength := 16 * x.toNat + 1 }

/-- A mapper's registers at the values its reset rule gives (R531, R541, R546, R550, R561, R566). -/
def MapperRegs.AtReset : MapperRegs → Prop
  | .variantA => True
  | .variantB r =>
    r.shiftReg = 0#5 ∧ r.shiftCount = 0 ∧ r.mirroring = 0#2 ∧ r.prgMode = 3#2 ∧ r.chrMode = false ∧
      r.chrBank0 = 0#5 ∧ r.chrBank1 = 0#5 ∧ r.prgBank = 0#4 ∧ r.ramDisable = false
  | .variantC prgBank => prgBank = 0#8
  | .cnrom chrBank => chrBank = 0#8
  | .variantD r =>
    (∀ k, Memory.read r.bankReg k = 0#8) ∧ r.regSelect = 0#3 ∧ r.prgMode = false ∧ r.chrMode = false ∧
      r.mirroring = false ∧ r.irqLatch = 0#8 ∧ r.irqCounter = 0#8 ∧ r.irqReload = false ∧
      r.irqEnable = false ∧ r.mapperIrq = false ∧ r.lastA12 = false
  | .variantE prgBank ntPage => prgBank = 0#4 ∧ ntPage = false

/-- Variant D: a register write by the half of its 8 KB window the address is in, even or odd (R555). -/
def registerLawD (a : Word) (x : Byte) (r : RegsD) : RegsD :=
  match a.toNat / 0x2000, a.toNat % 2 with
  | 4, 0 =>
    { r with
      regSelect := BitVec.ofNat 3 x.toNat, prgMode := decide (64 ≤ x.toNat % 128), chrMode := decide (128 ≤ x.toNat) }
  | 4, _ => { r with bankReg := Memory.write r.bankReg r.regSelect.toNat x }
  | 5, 0 => { r with mirroring := decide (x.toNat % 2 = 1) }
  | 5, _ => r
  | 6, 0 => { r with irqLatch := x }
  | 6, _ => { r with irqReload := true }
  | _, 0 => { r with irqEnable := false, mapperIrq := false }
  | _, _ => { r with irqEnable := true }

/-- A mapper's registers after a write from 0x8000 on (R529, R530, R540, R545, R549, R555, R565). -/
def registerLaw (a : Word) (x : Byte) : MapperRegs → MapperRegs
  | .variantA => .variantA
  | .variantB r => .variantB (r.write a x)
  | .variantC _ => .variantC x
  | .cnrom _ => .cnrom x
  | .variantD r => .variantD (registerLawD a x r)
  | .variantE _ _ => .variantE (BitVec.ofNat 4 x.toNat) (decide (16 ≤ x.toNat % 32))

/-- The colour of the current dot, by the pixels the background and the sprites show at it (R404, R409). -/
def dotColour (p : Ppu) : Byte :=
  let background := p.bgPixel p.dot
  if p.bgEnable = false ∧ p.sprEnable = false then
    p.paletteRead (if 0x3F00 ≤ p.v.toNat % 0x4000 then BitVec.ofNat 14 p.v.toNat else 0#14)
  else
    match p.spritePixel p.dot with
    | none => p.paletteRead (BitVec.ofNat 14 background)
    | some k =>
      if background = 0 ∨ k.behind = false then p.paletteRead (BitVec.ofNat 14 (16 + k.colour))
      else p.paletteRead (BitVec.ofNat 14 background)

/-! The opcodes that write each register, flag and memory (R20 to R23, R62). -/

/-- Opcodes that write A: LDA, PLA, TXA, TYA, ORA, AND, EOR, ADC, SBC, the accumulator shifts, SLO, RLA, SRE,
RRA, LAX, ISC, ANC, ALR, ARR (R20). -/
def writesA : List Nat :=
  [0x01, 0x03, 0x05, 0x07, 0x09, 0x0A, 0x0B, 0x0D, 0x0F, 0x11, 0x13, 0x15, 0x17, 0x19, 0x1B, 0x1D,
   0x1F, 0x21, 0x23, 0x25, 0x27, 0x29, 0x2A, 0x2B, 0x2D, 0x2F, 0x31, 0x33, 0x35, 0x37, 0x39, 0x3B,
   0x3D, 0x3F, 0x41, 0x43, 0x45, 0x47, 0x49, 0x4A, 0x4B, 0x4D, 0x4F, 0x51, 0x53, 0x55, 0x57, 0x59,
   0x5B, 0x5D, 0x5F, 0x61, 0x63, 0x65, 0x67, 0x68, 0x69, 0x6A, 0x6B, 0x6D, 0x6F, 0x71, 0x73, 0x75,
   0x77, 0x79, 0x7B, 0x7D, 0x7F, 0x8A, 0x98, 0xA1, 0xA3, 0xA5, 0xA7, 0xA9, 0xAD, 0xAF, 0xB1, 0xB3,
   0xB5, 0xB7, 0xB9, 0xBD, 0xBF, 0xE1, 0xE3, 0xE5, 0xE7, 0xE9, 0xEB, 0xED, 0xEF, 0xF1, 0xF3, 0xF5,
   0xF7, 0xF9, 0xFB, 0xFD, 0xFF]

/-- Opcodes that write X: LDX, TAX, TSX, INX, DEX, LAX, AXS (R21). -/
def writesX : List Nat :=
  [0xA2, 0xA3, 0xA6, 0xA7, 0xAA, 0xAE, 0xAF, 0xB3, 0xB6, 0xB7, 0xBA, 0xBE, 0xBF, 0xCA, 0xCB, 0xE8]

/-- Opcodes that write Y: LDY, TAY, INY, DEY (R21). -/
def writesY : List Nat :=
  [0x88, 0xA0, 0xA4, 0xA8, 0xAC, 0xB4, 0xBC, 0xC8]

/-- Opcodes that write S: TXS, the pushes and pulls, JSR, RTS, RTI, BRK (R22). -/
def writesS : List Nat :=
  [0x00, 0x08, 0x20, 0x28, 0x40, 0x48, 0x60, 0x68, 0x9A]

/-- Opcodes that write C (R23). -/
def writesC : List Nat :=
  [0x03, 0x06, 0x07, 0x0A, 0x0B, 0x0E, 0x0F, 0x13, 0x16, 0x17, 0x18, 0x1B, 0x1E, 0x1F, 0x23, 0x26,
   0x27, 0x28, 0x2A, 0x2B, 0x2E, 0x2F, 0x33, 0x36, 0x37, 0x38, 0x3B, 0x3E, 0x3F, 0x40, 0x43, 0x46,
   0x47, 0x4A, 0x4B, 0x4E, 0x4F, 0x53, 0x56, 0x57, 0x5B, 0x5E, 0x5F, 0x61, 0x63, 0x65, 0x66, 0x67,
   0x69, 0x6A, 0x6B, 0x6D, 0x6E, 0x6F, 0x71, 0x73, 0x75, 0x76, 0x77, 0x79, 0x7B, 0x7D, 0x7E, 0x7F,
   0xC0, 0xC1, 0xC3, 0xC4, 0xC5, 0xC7, 0xC9, 0xCB, 0xCC, 0xCD, 0xCF, 0xD1, 0xD3, 0xD5, 0xD7, 0xD9,
   0xDB, 0xDD, 0xDF, 0xE0, 0xE1, 0xE3, 0xE4, 0xE5, 0xE7, 0xE9, 0xEB, 0xEC, 0xED, 0xEF, 0xF1, 0xF3,
   0xF5, 0xF7, 0xF9, 0xFB, 0xFD, 0xFF]

/-- Opcodes that write Z, and the same write N (R23). -/
def writesZ : List Nat :=
  [0x01, 0x03, 0x05, 0x06, 0x07, 0x09, 0x0A, 0x0B, 0x0D, 0x0E, 0x0F, 0x11, 0x13, 0x15, 0x16, 0x17,
   0x19, 0x1B, 0x1D, 0x1E, 0x1F, 0x21, 0x23, 0x24, 0x25, 0x26, 0x27, 0x28, 0x29, 0x2A, 0x2B, 0x2C,
   0x2D, 0x2E, 0x2F, 0x31, 0x33, 0x35, 0x36, 0x37, 0x39, 0x3B, 0x3D, 0x3E, 0x3F, 0x40, 0x41, 0x43,
   0x45, 0x46, 0x47, 0x49, 0x4A, 0x4B, 0x4D, 0x4E, 0x4F, 0x51, 0x53, 0x55, 0x56, 0x57, 0x59, 0x5B,
   0x5D, 0x5E, 0x5F, 0x61, 0x63, 0x65, 0x66, 0x67, 0x68, 0x69, 0x6A, 0x6B, 0x6D, 0x6E, 0x6F, 0x71,
   0x73, 0x75, 0x76, 0x77, 0x79, 0x7B, 0x7D, 0x7E, 0x7F, 0x88, 0x8A, 0x98, 0xA0, 0xA1, 0xA2, 0xA3,
   0xA4, 0xA5, 0xA6, 0xA7, 0xA8, 0xA9, 0xAA, 0xAC, 0xAD, 0xAE, 0xAF, 0xB1, 0xB3, 0xB4, 0xB5, 0xB6,
   0xB7, 0xB9, 0xBA, 0xBC, 0xBD, 0xBE, 0xBF, 0xC0, 0xC1, 0xC3, 0xC4, 0xC5, 0xC6, 0xC7, 0xC8, 0xC9,
   0xCA, 0xCB, 0xCC, 0xCD, 0xCE, 0xCF, 0xD1, 0xD3, 0xD5, 0xD6, 0xD7, 0xD9, 0xDB, 0xDD, 0xDE, 0xDF,
   0xE0, 0xE1, 0xE3, 0xE4, 0xE5, 0xE6, 0xE7, 0xE8, 0xE9, 0xEB, 0xEC, 0xED, 0xEE, 0xEF, 0xF1, 0xF3,
   0xF5, 0xF6, 0xF7, 0xF9, 0xFB, 0xFD, 0xFE, 0xFF]

/-- Opcodes that write V (R23). -/
def writesV : List Nat :=
  [0x24, 0x28, 0x2C, 0x40, 0x61, 0x63, 0x65, 0x67, 0x69, 0x6B, 0x6D, 0x6F, 0x71, 0x73, 0x75, 0x77,
   0x79, 0x7B, 0x7D, 0x7F, 0xB8, 0xE1, 0xE3, 0xE5, 0xE7, 0xE9, 0xEB, 0xED, 0xEF, 0xF1, 0xF3, 0xF5,
   0xF7, 0xF9, 0xFB, 0xFD, 0xFF]

/-- Opcodes that write I: SEI, CLI, PLP, RTI, BRK (R23). -/
def writesI : List Nat :=
  [0x00, 0x28, 0x40, 0x58, 0x78]

/-- Opcodes that write D: SED, CLD, PLP, RTI (R23). -/
def writesD : List Nat :=
  [0x28, 0x40, 0xD8, 0xF8]

/-- Opcodes that push: PHA, PHP, JSR, BRK. -/
def pushes : List Nat := [0x48, 0x08, 0x20, 0x00]

/-- The operand of a form that stores at its effective address: the stores and the read-modify-writes. -/
def storeOperand : Instr → Option Operand
  | .sloIzx b => some (.izx b)
  | .aslZp b => some (.zp b)
  | .sloZp b => some (.zp b)
  | .aslAbs w => some (.abs w)
  | .sloAbs w => some (.abs w)
  | .sloIzy b => some (.izy b)
  | .aslZpx b => some (.zpx b)
  | .sloZpx b => some (.zpx b)
  | .sloAby w => some (.aby w)
  | .aslAbx w => some (.abx w)
  | .sloAbx w => some (.abx w)
  | .rlaIzx b => some (.izx b)
  | .rolZp b => some (.zp b)
  | .rlaZp b => some (.zp b)
  | .rolAbs w => some (.abs w)
  | .rlaAbs w => some (.abs w)
  | .rlaIzy b => some (.izy b)
  | .rolZpx b => some (.zpx b)
  | .rlaZpx b => some (.zpx b)
  | .rlaAby w => some (.aby w)
  | .rolAbx w => some (.abx w)
  | .rlaAbx w => some (.abx w)
  | .sreIzx b => some (.izx b)
  | .lsrZp b => some (.zp b)
  | .sreZp b => some (.zp b)
  | .lsrAbs w => some (.abs w)
  | .sreAbs w => some (.abs w)
  | .sreIzy b => some (.izy b)
  | .lsrZpx b => some (.zpx b)
  | .sreZpx b => some (.zpx b)
  | .sreAby w => some (.aby w)
  | .lsrAbx w => some (.abx w)
  | .sreAbx w => some (.abx w)
  | .rraIzx b => some (.izx b)
  | .rorZp b => some (.zp b)
  | .rraZp b => some (.zp b)
  | .rorAbs w => some (.abs w)
  | .rraAbs w => some (.abs w)
  | .rraIzy b => some (.izy b)
  | .rorZpx b => some (.zpx b)
  | .rraZpx b => some (.zpx b)
  | .rraAby w => some (.aby w)
  | .rorAbx w => some (.abx w)
  | .rraAbx w => some (.abx w)
  | .staIzx b => some (.izx b)
  | .saxIzx b => some (.izx b)
  | .styZp b => some (.zp b)
  | .staZp b => some (.zp b)
  | .stxZp b => some (.zp b)
  | .saxZp b => some (.zp b)
  | .styAbs w => some (.abs w)
  | .staAbs w => some (.abs w)
  | .stxAbs w => some (.abs w)
  | .saxAbs w => some (.abs w)
  | .staIzy b => some (.izy b)
  | .styZpx b => some (.zpx b)
  | .staZpx b => some (.zpx b)
  | .stxZpy b => some (.zpy b)
  | .saxZpy b => some (.zpy b)
  | .staAby w => some (.aby w)
  | .staAbx w => some (.abx w)
  | .dcpIzx b => some (.izx b)
  | .decZp b => some (.zp b)
  | .dcpZp b => some (.zp b)
  | .decAbs w => some (.abs w)
  | .dcpAbs w => some (.abs w)
  | .dcpIzy b => some (.izy b)
  | .decZpx b => some (.zpx b)
  | .dcpZpx b => some (.zpx b)
  | .dcpAby w => some (.aby w)
  | .decAbx w => some (.abx w)
  | .dcpAbx w => some (.abx w)
  | .iscIzx b => some (.izx b)
  | .incZp b => some (.zp b)
  | .iscZp b => some (.zp b)
  | .incAbs w => some (.abs w)
  | .iscAbs w => some (.abs w)
  | .iscIzy b => some (.izy b)
  | .incZpx b => some (.zpx b)
  | .iscZpx b => some (.zpx b)
  | .iscAby w => some (.aby w)
  | .incAbx w => some (.abx w)
  | .iscAbx w => some (.abx w)
  | _ => none

/-- The byte a storing form writes, of its opcode, the state before it and the byte `v` at its effective address:
the rows from 0x80 on store Y, A, X or A AND X, the others shift, rotate, decrement or increment `v` (R134, R180,
R240 to R247). -/
def storedByte (op : Nat) (s : State) (v : Byte) : Byte :=
  match op / 32 with
  | 0 => aslResult v s.flagC
  | 1 => rolResult v s.flagC
  | 2 => lsrResult v s.flagC
  | 3 => rorResult v s.flagC
  | 4 =>
    match op % 4 with
    | 0 => s.y
    | 1 => s.a
    | 2 => s.x
    | _ => s.a &&& s.x
  | 6 => decResult v s.flagC
  | _ => incResult v s.flagC

/-- Opcodes of those forms. -/
def stores : List Nat :=
  [0x03, 0x06, 0x07, 0x0E, 0x0F, 0x13, 0x16, 0x17, 0x1B, 0x1E, 0x1F, 0x23, 0x26, 0x27, 0x2E, 0x2F,
   0x33, 0x36, 0x37, 0x3B, 0x3E, 0x3F, 0x43, 0x46, 0x47, 0x4E, 0x4F, 0x53, 0x56, 0x57, 0x5B, 0x5E,
   0x5F, 0x63, 0x66, 0x67, 0x6E, 0x6F, 0x73, 0x76, 0x77, 0x7B, 0x7E, 0x7F, 0x81, 0x83, 0x84, 0x85,
   0x86, 0x87, 0x8C, 0x8D, 0x8E, 0x8F, 0x91, 0x94, 0x95, 0x96, 0x97, 0x99, 0x9D, 0xC3, 0xC6, 0xC7,
   0xCE, 0xCF, 0xD3, 0xD6, 0xD7, 0xDB, 0xDE, 0xDF, 0xE3, 0xE6, 0xE7, 0xEE, 0xEF, 0xF3, 0xF6, 0xF7,
   0xFB, 0xFE, 0xFF]

end Sys2Proof.Machine
end

