-- ==== Sys2Proof/Certificates/Slice0/Obligations.lean ====
section
/-! DEFINITION. The statements for the provers. -/

open Sys2Proof Sys2Proof.Machine

/-- For every instruction i, with every operand, and every list of bytes rest: decoding encode i followed by
rest answers i and rest. (R90, R105, R106, R107.) -/
def Obligations.DecodeInvertsEncode : Prop :=
  ∀ (i : Instr) (rest : List Byte), decode (encode i ++ rest) = .ok (i, rest)

/-- Where decoding a list of bytes answers i and rest, the list is encode i followed by rest: no two byte
strings stand for one instruction and no bit is dropped. (R90, R105, R106, R107.) -/
def Obligations.EncodeInvertsDecode : Prop :=
  ∀ (bytes : List Byte) (i : Instr) (rest : List Byte),
    decode bytes = .ok (i, rest) → bytes = encode i ++ rest

/-- For every opcode byte and two bytes after it, decoding answers an instruction of that opcode byte and
leaves what follows its one, two or three bytes; instructions with one opcode byte have one length. (R106,
R110.) -/
def Obligations.EveryOpcodeByteDecodes : Prop :=
  (∀ (op b1 b2 : Byte) (rest : List Byte), ∃ i,
      opcodeOf i = op ∧ 1 ≤ (encode i).length ∧ (encode i).length ≤ 3 ∧
        decode (op :: b1 :: b2 :: rest) = .ok (i, (op :: b1 :: b2 :: rest).drop (encode i).length)) ∧
    ∀ i j : Instr, opcodeOf i = opcodeOf j → (encode i).length = (encode j).length

/-- BRK, JMP indirect, LDA and STA (zp),Y, NOP, SBC 0xEB, DCP (zp,X), KIL, SHX, BNE and JSR, each from its
bytes. (R107, R105.) -/
def Obligations.SpelledOutBytesDecode : Prop :=
  Encodes [0x00#8] .brk ∧
    Encodes [0x6C#8, 0xFF#8, 0x02#8] (.jmpInd 0x02FF#16) ∧
    Encodes [0xB1#8, 0x40#8] (.ldaIzy 0x40#8) ∧
    Encodes [0x91#8, 0x40#8] (.staIzy 0x40#8) ∧
    Encodes [0xEA#8] .nop ∧
    Encodes [0xEB#8, 0x01#8] (.sbcEB 0x01#8) ∧
    Encodes [0xC3#8, 0x10#8] (.dcpIzx 0x10#8) ∧
    Encodes [0x02#8] .kil02 ∧
    Encodes [0x9E#8, 0x00#8, 0x02#8] (.shx 0x0200#16) ∧
    Encodes [0xD0#8, 0xF9#8] (.bne 0xF9#8) ∧
    Encodes [0x20#8, 0x10#8, 0x90#8] (.jsr 0x9010#16)

/-- With a cartridge, at a processor cycle, no DMA, no instruction in flight, no NMI and no unmasked IRQ
source, and PC in memory whose reads have no side effect: when the bytes at PC decode to i, step is exec
of i with PC after the instruction, controllers latched and the IRQ level set, then one cycle counted, the
mapper tick, the audio step, the dot and the master-cycle count. (R300, R302, R303, R360, R361.) -/
def Obligations.StepRunsDecodedInstruction : Prop :=
  ∀ (s : State) (c : Cartridge) (i : Instr) (rest : List Byte),
    s.cart = some c → s.masterCycle % 3 = 0 → s.inDma = false → s.cyclesRemaining = 0 →
    s.nmiPending = false → (irqSources s = false ∨ s.flagI = true) →
    ¬ ReadEffectAddress s.pc → ¬ ReadEffectAddress (s.pc + 1#16) → ¬ ReadEffectAddress (s.pc + 2#16) →
    decode [busPeek s s.pc, busPeek s (s.pc + 1#16), busPeek s (s.pc + 2#16)] = .ok (i, rest) →
    step s =
      thenDo (exec i { beginProcessorCycle s with pc := s.pc + BitVec.ofNat 16 (encode i).length })
        fun t => endMasterCycle (apuStep (mapperTick { t with cyclesRemaining := t.cyclesRemaining - 1 }))

/-- For every state: with b0, b1, b2 what successive reads at PC, PC+1, PC+2 return, each after the effects of
the ones before, the fetched instruction is what b0, b1, b2 decode to, PC ends after it, and only its own
bytes were read; the operand byte of the immediate NOPs is not read (log 7). (R63, R67, R106, R255.) -/
def Obligations.FetchReadsEachByteOnce : Prop :=
  ∀ (s : State) (i : Instr) (rest : List Byte),
    let s1 := afterRead s s.pc
    let s2 := afterRead s1 (s.pc + 1#16)
    let s3 := afterRead s2 (s.pc + 2#16)
    decode [busPeek s s.pc, busPeek s1 (s.pc + 1#16), busPeek s2 (s.pc + 2#16)] = .ok (i, rest) →
    fetchInstr s =
      (i, { (if (encode i).length = 1 then s1
             else if (encode i).length = 2 then
               (if opcodeOf i ∈ [0x80#8, 0x82#8, 0x89#8, 0xC2#8, 0xE2#8] then s1 else s2)
             else s3) with pc := s.pc + BitVec.ofNat 16 (encode i).length })

/-- While an instruction has cycles left, the CPU step only counts one down. With a cartridge and a master
cycle whose index is a multiple of 3, controllers are latched and the IRQ level set, and before the mapper
tick, the audio step, the dot and the master-cycle count a step runs, with a transfer in progress, one DMA
cycle in the CPU's place: A, X, Y, S, PC, the flags and the cycles left stay, the DMA registers are what that
DMA cycle leaves and a pending NMI stays pending; with none, the CPU step, so that it counts down while cycles
are left and at a boundary serves an NMI, or an unmasked IRQ source, with the entry sequence. In a master
cycle whose index is no multiple of 3, a step changes nothing but the picture unit, the cartridge (its image
and header stay), the NMI latch (never cleared) and the count of master cycles. Which master cycle of the
three, and the clearing of the latch, are the spec's decisions D21 and D8 (log 5). (R301, R341, R342, R353,
R354, R360, R361, R300, R304, R305, R306.) -/
def Obligations.ProcessorAndOffCycles : Prop :=
  (∀ (s : State) (n : Nat), s.cyclesRemaining = n + 1 → cpuStep s = .next { s with cyclesRemaining := n }) ∧
    (∀ (s : State) (c : Cartridge), s.cart = some c → s.masterCycle % 3 = 0 →
      let b := beginProcessorCycle s
      let rest (u : State) : State := endMasterCycle (apuStep (mapperTick u))
      step s = thenDo (if s.inDma then .next (dmaStep b) else cpuStep b) rest ∧
      (s.inDma = true → ∃ t, step s = .next t ∧ t = rest (dmaStep b) ∧
        t.a = s.a ∧ t.x = s.x ∧ t.y = s.y ∧ t.sp = s.sp ∧ t.pc = s.pc ∧ statusByte false t = statusByte false s ∧
        t.cyclesRemaining = s.cyclesRemaining ∧ t.inDma = (dmaStep b).inDma ∧ t.dmaPage = s.dmaPage ∧
        t.dmaCounter = (dmaStep b).dmaCounter ∧ t.dmaValue = (dmaStep b).dmaValue ∧
        (s.nmiPending = true → t.nmiPending = true)) ∧
      (s.inDma = false → ∀ n, s.cyclesRemaining = n + 1 → step s = .next (rest { b with cyclesRemaining := n })) ∧
      (s.inDma = false → s.cyclesRemaining = 0 → s.nmiPending = true → step s = .next
        (rest { entryLaw 0xFFFA#16 s.pc.toNat false { b with nmiPending := false } with cyclesRemaining := 6 })) ∧
      (s.inDma = false → s.cyclesRemaining = 0 → s.nmiPending = false → irqSources s = true → s.flagI = false →
        step s = .next (rest { entryLaw 0xFFFE#16 s.pc.toNat false b with cyclesRemaining := 6 }))) ∧
    ∀ (s : State) (c : Cartridge), s.cart = some c → s.masterCycle % 3 ≠ 0 → ∃ t, step s = .next t ∧
      t = { s with ppu := t.ppu, cart := t.cart, nmiPending := t.nmiPending,
                   masterCycle := s.masterCycle + 1 } ∧
      (s.nmiPending = true → t.nmiPending = true) ∧ SameImage s t

/-- For every state, either a step answers a next state, or there is no cartridge and it is refused as
noCartridge, or the CPU is at an instruction boundary, no NMI is pending and no IRQ source is up unmasked,
and the fetched instruction is one of the eight unstable ones, refused with its opcode. (R307, R365, R593,
R262.) -/
def Obligations.StepStopsOnlyWhereRefused : Prop :=
  ∀ s : State,
    (s.cart = none → step s = .refused .noCartridge) ∧
    (s.cart ≠ none →
      (∃ t, step s = .next t) ∨
      (s.masterCycle % 3 = 0 ∧ s.inDma = false ∧ s.cyclesRemaining = 0 ∧ s.nmiPending = false ∧
        (irqSources s = false ∨ s.flagI = true) ∧
        (fetchInstr (beginProcessorCycle s)).1.wf = false ∧
        step s = .refused (.unstableOpcode (opcodeOf (fetchInstr (beginProcessorCycle s)).1))))

/-- For every well-formed instruction (the 248 admitted ones) with every operand, and every state, exec
answers a next state that keeps the machine's arguments, and where its cost table is in range the cost is
from 2 to 8 cycles; exec of an instruction that is not well-formed is refused with its opcode. A machine
given a table of 256 rows (the parameter CYCLE_TABLE; how it is carried is the model's choice, log 12) has
each opcode's row from it; it is in range when every row costs from 2 to 8 cycles, its penalty or the two
cycles of a taken branch included; the default rows are held as the empty list, the table State.reset has.
(R301, R307, R11, R262, R5, R109, R620.) -/
def Obligations.AdmittedInstructionsComplete : Prop :=
  (∀ (i : Instr) (s : State),
      (i.wf = true → ∃ t, exec i s = .next t ∧ t.args = s.args ∧
        (s.args.cycleTable.Ok → 2 ≤ t.cyclesRemaining ∧ t.cyclesRemaining ≤ 8)) ∧
      (i.wf = false → exec i s = .refused (.unstableOpcode (opcodeOf i)))) ∧
    (∀ (rows : Byte → CycleRow) (s : State),
      (∀ op, cycleRow (s.withCycleTable rows) op = rows op) ∧
      ((∀ op, 2 ≤ (rows op).base ∧
          (rows op).base + (if op.toNat % 32 = 16 then 2 else carryNat (rows op).penalty) ≤ 8) →
        (s.withCycleTable rows).args.cycleTable.Ok)) ∧
    ∀ s : State, (s.withCycleTable defaultRow).args.cycleTable = State.reset.args.cycleTable

/-- XAA, AHX, TAS, SHY, SHX, LXA and LAS decode with their length and have their nominal cycle count in the
default table, and exec refuses each in every state. (R262.) -/
def Obligations.UnstableOpcodesRefused : Prop :=
  ∀ (b : Byte) (w : Word),
    (Encodes [0x8B#8, b] (.xaa b) ∧ (defaultRow 0x8B#8).base = 2 ∧
      ∀ s, exec (.xaa b) s = .refused (.unstableOpcode 0x8B#8)) ∧
    (Encodes [0x93#8, b] (.ahxIzy b) ∧ (defaultRow 0x93#8).base = 6 ∧
      ∀ s, exec (.ahxIzy b) s = .refused (.unstableOpcode 0x93#8)) ∧
    (Encodes [0x9B#8, loByte w, hiByte w] (.tas w) ∧ (defaultRow 0x9B#8).base = 5 ∧
      ∀ s, exec (.tas w) s = .refused (.unstableOpcode 0x9B#8)) ∧
    (Encodes [0x9C#8, loByte w, hiByte w] (.shy w) ∧ (defaultRow 0x9C#8).base = 5 ∧
      ∀ s, exec (.shy w) s = .refused (.unstableOpcode 0x9C#8)) ∧
    (Encodes [0x9E#8, loByte w, hiByte w] (.shx w) ∧ (defaultRow 0x9E#8).base = 5 ∧
      ∀ s, exec (.shx w) s = .refused (.unstableOpcode 0x9E#8)) ∧
    (Encodes [0x9F#8, loByte w, hiByte w] (.ahxAby w) ∧ (defaultRow 0x9F#8).base = 5 ∧
      ∀ s, exec (.ahxAby w) s = .refused (.unstableOpcode 0x9F#8)) ∧
    (Encodes [0xAB#8, b] (.lxa b) ∧ (defaultRow 0xAB#8).base = 2 ∧
      ∀ s, exec (.lxa b) s = .refused (.unstableOpcode 0xAB#8)) ∧
    (Encodes [0xBB#8, loByte w, hiByte w] (.las w) ∧ (defaultRow 0xBB#8).base = 4 ∧
      ∀ s, exec (.las w) s = .refused (.unstableOpcode 0xBB#8))

/-- For every state and operand bytes: the effective address of each mode as a number, with the zero-page and
16-bit wraps; the crossing flag, in abs,X, abs,Y and (zp),Y exactly when the low byte and the index exceed
255, in every other mode never; computing an address changes no state; and the operand is one read at that
address. (R93, R94, R95, R96, R97, R98, R99, R101, R102, R63.) -/
def Obligations.EffectiveAddresses : Prop :=
  ∀ (s : State) (b : Byte) (w : Word),
    let pointer (p : Nat) : Nat :=
      (busPeek s (BitVec.ofNat 16 p)).toNat + 256 * (busPeek s (BitVec.ofNat 16 ((p + 1) % 256))).toNat
    (locate (.imm b) s).ea.toNat = (s.pc.toNat + 65535) % 65536 ∧ (locate (.imm b) s).crossed = false ∧
    (locate (.zp b) s).ea.toNat = b.toNat ∧ (locate (.zp b) s).crossed = false ∧
    (locate (.zpx b) s).ea.toNat = (b.toNat + s.x.toNat) % 256 ∧ (locate (.zpx b) s).crossed = false ∧
    (locate (.zpy b) s).ea.toNat = (b.toNat + s.y.toNat) % 256 ∧ (locate (.zpy b) s).crossed = false ∧
    (locate (.abs w) s).ea = w ∧ (locate (.abs w) s).crossed = false ∧
    (locate (.abx w) s).ea.toNat = (w.toNat + s.x.toNat) % 65536 ∧
    (locate (.abx w) s).crossed = decide (255 < w.toNat % 256 + s.x.toNat) ∧
    (locate (.aby w) s).ea.toNat = (w.toNat + s.y.toNat) % 65536 ∧
    (locate (.aby w) s).crossed = decide (255 < w.toNat % 256 + s.y.toNat) ∧
    (locate (.izx b) s).ea.toNat = pointer ((b.toNat + s.x.toNat) % 256) ∧
    (locate (.izx b) s).crossed = false ∧
    (locate (.izy b) s).ea.toNat = (pointer b.toNat + s.y.toNat) % 65536 ∧
    (locate (.izy b) s).crossed = decide (255 < pointer b.toNat % 256 + s.y.toNat) ∧
    (∀ o, (locate o s).state = s) ∧
    (readOperand (.imm b) s).value = b ∧ (readOperand (.imm b) s).crossed = false ∧
      (readOperand (.imm b) s).state = s ∧
    (∀ o, (∀ m, o ≠ .imm m) →
      (readOperand o s).value = busPeek s (locate o s).ea ∧
      (readOperand o s).crossed = (locate o s).crossed ∧
      (readOperand o s).state = afterRead s (locate o s).ea)

/-- Each opcode byte decodes to its form, and in every state the form answers the state after its one read
with the destination register, Z and N from the byte, all else as it was, and the cost of its row of the
machine's cost table, by default that of R109, one more where the row is marked and indexing crosses a
page. (R131, R132, R133, R246.) -/
def Obligations.LoadForms : Prop :=
  ∀ (b : Byte) (w : Word),
    ReadForm [0xA9#8, b] (.ldaImm b) (.imm b) 2 false (fun m u => zeroNegative m { u with a := m }) ∧
    ReadForm [0xA5#8, b] (.ldaZp b) (.zp b) 3 false (fun m u => zeroNegative m { u with a := m }) ∧
    ReadForm [0xB5#8, b] (.ldaZpx b) (.zpx b) 4 false (fun m u => zeroNegative m { u with a := m }) ∧
    ReadForm [0xAD#8, loByte w, hiByte w] (.ldaAbs w) (.abs w) 4 false (fun m u => zeroNegative m { u with a := m }) ∧
    ReadForm [0xBD#8, loByte w, hiByte w] (.ldaAbx w) (.abx w) 4 true (fun m u => zeroNegative m { u with a := m }) ∧
    ReadForm [0xB9#8, loByte w, hiByte w] (.ldaAby w) (.aby w) 4 true (fun m u => zeroNegative m { u with a := m }) ∧
    ReadForm [0xA1#8, b] (.ldaIzx b) (.izx b) 6 false (fun m u => zeroNegative m { u with a := m }) ∧
    ReadForm [0xB1#8, b] (.ldaIzy b) (.izy b) 5 true (fun m u => zeroNegative m { u with a := m }) ∧
    ReadForm [0xA2#8, b] (.ldxImm b) (.imm b) 2 false (fun m u => zeroNegative m { u with x := m }) ∧
    ReadForm [0xA6#8, b] (.ldxZp b) (.zp b) 3 false (fun m u => zeroNegative m { u with x := m }) ∧
    ReadForm [0xB6#8, b] (.ldxZpy b) (.zpy b) 4 false (fun m u => zeroNegative m { u with x := m }) ∧
    ReadForm [0xAE#8, loByte w, hiByte w] (.ldxAbs w) (.abs w) 4 false (fun m u => zeroNegative m { u with x := m }) ∧
    ReadForm [0xBE#8, loByte w, hiByte w] (.ldxAby w) (.aby w) 4 true (fun m u => zeroNegative m { u with x := m }) ∧
    ReadForm [0xA0#8, b] (.ldyImm b) (.imm b) 2 false (fun m u => zeroNegative m { u with y := m }) ∧
    ReadForm [0xA4#8, b] (.ldyZp b) (.zp b) 3 false (fun m u => zeroNegative m { u with y := m }) ∧
    ReadForm [0xB4#8, b] (.ldyZpx b) (.zpx b) 4 false (fun m u => zeroNegative m { u with y := m }) ∧
    ReadForm [0xAC#8, loByte w, hiByte w] (.ldyAbs w) (.abs w) 4 false (fun m u => zeroNegative m { u with y := m }) ∧
    ReadForm [0xBC#8, loByte w, hiByte w] (.ldyAbx w) (.abx w) 4 true (fun m u => zeroNegative m { u with y := m }) ∧
    ReadForm [0xA7#8, b] (.laxZp b) (.zp b) 3 false (fun m u => zeroNegative m { u with a := m, x := m }) ∧
    ReadForm [0xB7#8, b] (.laxZpy b) (.zpy b) 4 false (fun m u => zeroNegative m { u with a := m, x := m }) ∧
    ReadForm [0xAF#8, loByte w, hiByte w] (.laxAbs w) (.abs w) 4 false (fun m u => zeroNegative m { u with a := m, x := m }) ∧
    ReadForm [0xBF#8, loByte w, hiByte w] (.laxAby w) (.aby w) 4 true (fun m u => zeroNegative m { u with a := m, x := m }) ∧
    ReadForm [0xA3#8, b] (.laxIzx b) (.izx b) 6 false (fun m u => zeroNegative m { u with a := m, x := m }) ∧
    ReadForm [0xB3#8, b] (.laxIzy b) (.izy b) 5 true (fun m u => zeroNegative m { u with a := m, x := m })

/-- Each opcode byte decodes to its form, and in every state the form answers the state after one write of the
register (A and X for SAX) at the effective address, with no other change and the cost of its row of the
machine's cost table, by default that of R109. (R134, R135, R136, R245.) -/
def Obligations.StoreForms : Prop :=
  ∀ (b : Byte) (w : Word),
    StoreForm [0x85#8, b] (.staZp b) (.zp b) 3 (fun s => s.a) ∧
    StoreForm [0x95#8, b] (.staZpx b) (.zpx b) 4 (fun s => s.a) ∧
    StoreForm [0x8D#8, loByte w, hiByte w] (.staAbs w) (.abs w) 4 (fun s => s.a) ∧
    StoreForm [0x9D#8, loByte w, hiByte w] (.staAbx w) (.abx w) 5 (fun s => s.a) ∧
    StoreForm [0x99#8, loByte w, hiByte w] (.staAby w) (.aby w) 5 (fun s => s.a) ∧
    StoreForm [0x81#8, b] (.staIzx b) (.izx b) 6 (fun s => s.a) ∧
    StoreForm [0x91#8, b] (.staIzy b) (.izy b) 6 (fun s => s.a) ∧
    StoreForm [0x86#8, b] (.stxZp b) (.zp b) 3 (fun s => s.x) ∧
    StoreForm [0x96#8, b] (.stxZpy b) (.zpy b) 4 (fun s => s.x) ∧
    StoreForm [0x8E#8, loByte w, hiByte w] (.stxAbs w) (.abs w) 4 (fun s => s.x) ∧
    StoreForm [0x84#8, b] (.styZp b) (.zp b) 3 (fun s => s.y) ∧
    StoreForm [0x94#8, b] (.styZpx b) (.zpx b) 4 (fun s => s.y) ∧
    StoreForm [0x8C#8, loByte w, hiByte w] (.styAbs w) (.abs w) 4 (fun s => s.y) ∧
    StoreForm [0x87#8, b] (.saxZp b) (.zp b) 3 (fun s => s.a &&& s.x) ∧
    StoreForm [0x97#8, b] (.saxZpy b) (.zpy b) 4 (fun s => s.a &&& s.x) ∧
    StoreForm [0x8F#8, loByte w, hiByte w] (.saxAbs w) (.abs w) 4 (fun s => s.a &&& s.x) ∧
    StoreForm [0x83#8, b] (.saxIzx b) (.izx b) 6 (fun s => s.a &&& s.x)

/-- TAX, TAY, TXA, TYA, TSX set the destination, Z and N; TXS sets S alone; 2 cycles each in the default cost
table (R109); nothing else changes. (R137, R138, R139, R140, R141, R142.) -/
def Obligations.TransferForms : Prop :=
  PlainForm [0xAA#8] .tax 2 (fun s => zeroNegative s.a { s with x := s.a }) ∧
    PlainForm [0xA8#8] .tay 2 (fun s => zeroNegative s.a { s with y := s.a }) ∧
    PlainForm [0x8A#8] .txa 2 (fun s => zeroNegative s.x { s with a := s.x }) ∧
    PlainForm [0x98#8] .tya 2 (fun s => zeroNegative s.y { s with a := s.y }) ∧
    PlainForm [0xBA#8] .tsx 2 (fun s => zeroNegative s.sp { s with x := s.sp }) ∧
    PlainForm [0x9A#8] .txs 2 (fun s => { s with sp := s.x })

/-- A push stores at 0x0100 + S and lowers S modulo 256; PHP pushes N V 1 1 D I Z C; a pull raises S modulo
256 and reads there; PLA sets A, Z and N; PLP sets the six flags and ignores bits 5 and 4; 3 and 4 cycles
in the default cost table (R109). (R151, R152, R153, R154.) -/
def Obligations.StackForms : Prop :=
  PlainForm [0x48#8] .pha 3 (fun s => { busWrite s (stackAt s.sp) s.a with sp := s.sp - 1#8 }) ∧
    PlainForm [0x08#8] .php 3 (fun s => { busWrite s (stackAt s.sp) (statusByte true s) with sp := s.sp - 1#8 }) ∧
    PlainForm [0x68#8] .pla 4 (fun s =>
      let v := busPeek s (stackAt (s.sp + 1#8))
      zeroNegative v { s with a := v, sp := s.sp + 1#8 }) ∧
    PlainForm [0x28#8] .plp 4 (fun s => loadStatus (busPeek s (stackAt (s.sp + 1#8))) { s with sp := s.sp + 1#8 })

/-- Each opcode byte decodes to its form; the new A, Z and N are those of the bitwise operation; BIT sets Z
from the AND and N and V from bits 7 and 6 of the operand and keeps A; nothing else changes. (R161, R162,
R163, R169.) -/
def Obligations.LogicAndBitForms : Prop :=
  ∀ (b : Byte) (w : Word),
    ReadForm [0x09#8, b] (.oraImm b) (.imm b) 2 false (fun m u => zeroNegative (u.a ||| m) { u with a := u.a ||| m }) ∧
    ReadForm [0x05#8, b] (.oraZp b) (.zp b) 3 false (fun m u => zeroNegative (u.a ||| m) { u with a := u.a ||| m }) ∧
    ReadForm [0x15#8, b] (.oraZpx b) (.zpx b) 4 false (fun m u => zeroNegative (u.a ||| m) { u with a := u.a ||| m }) ∧
    ReadForm [0x0D#8, loByte w, hiByte w] (.oraAbs w) (.abs w) 4 false (fun m u => zeroNegative (u.a ||| m) { u with a := u.a ||| m }) ∧
    ReadForm [0x1D#8, loByte w, hiByte w] (.oraAbx w) (.abx w) 4 true (fun m u => zeroNegative (u.a ||| m) { u with a := u.a ||| m }) ∧
    ReadForm [0x19#8, loByte w, hiByte w] (.oraAby w) (.aby w) 4 true (fun m u => zeroNegative (u.a ||| m) { u with a := u.a ||| m }) ∧
    ReadForm [0x01#8, b] (.oraIzx b) (.izx b) 6 false (fun m u => zeroNegative (u.a ||| m) { u with a := u.a ||| m }) ∧
    ReadForm [0x11#8, b] (.oraIzy b) (.izy b) 5 true (fun m u => zeroNegative (u.a ||| m) { u with a := u.a ||| m }) ∧
    ReadForm [0x29#8, b] (.andImm b) (.imm b) 2 false (fun m u => zeroNegative (u.a &&& m) { u with a := u.a &&& m }) ∧
    ReadForm [0x25#8, b] (.andZp b) (.zp b) 3 false (fun m u => zeroNegative (u.a &&& m) { u with a := u.a &&& m }) ∧
    ReadForm [0x35#8, b] (.andZpx b) (.zpx b) 4 false (fun m u => zeroNegative (u.a &&& m) { u with a := u.a &&& m }) ∧
    ReadForm [0x2D#8, loByte w, hiByte w] (.andAbs w) (.abs w) 4 false (fun m u => zeroNegative (u.a &&& m) { u with a := u.a &&& m }) ∧
    ReadForm [0x3D#8, loByte w, hiByte w] (.andAbx w) (.abx w) 4 true (fun m u => zeroNegative (u.a &&& m) { u with a := u.a &&& m }) ∧
    ReadForm [0x39#8, loByte w, hiByte w] (.andAby w) (.aby w) 4 true (fun m u => zeroNegative (u.a &&& m) { u with a := u.a &&& m }) ∧
    ReadForm [0x21#8, b] (.andIzx b) (.izx b) 6 false (fun m u => zeroNegative (u.a &&& m) { u with a := u.a &&& m }) ∧
    ReadForm [0x31#8, b] (.andIzy b) (.izy b) 5 true (fun m u => zeroNegative (u.a &&& m) { u with a := u.a &&& m }) ∧
    ReadForm [0x49#8, b] (.eorImm b) (.imm b) 2 false (fun m u => zeroNegative (u.a ^^^ m) { u with a := u.a ^^^ m }) ∧
    ReadForm [0x45#8, b] (.eorZp b) (.zp b) 3 false (fun m u => zeroNegative (u.a ^^^ m) { u with a := u.a ^^^ m }) ∧
    ReadForm [0x55#8, b] (.eorZpx b) (.zpx b) 4 false (fun m u => zeroNegative (u.a ^^^ m) { u with a := u.a ^^^ m }) ∧
    ReadForm [0x4D#8, loByte w, hiByte w] (.eorAbs w) (.abs w) 4 false (fun m u => zeroNegative (u.a ^^^ m) { u with a := u.a ^^^ m }) ∧
    ReadForm [0x5D#8, loByte w, hiByte w] (.eorAbx w) (.abx w) 4 true (fun m u => zeroNegative (u.a ^^^ m) { u with a := u.a ^^^ m }) ∧
    ReadForm [0x59#8, loByte w, hiByte w] (.eorAby w) (.aby w) 4 true (fun m u => zeroNegative (u.a ^^^ m) { u with a := u.a ^^^ m }) ∧
    ReadForm [0x41#8, b] (.eorIzx b) (.izx b) 6 false (fun m u => zeroNegative (u.a ^^^ m) { u with a := u.a ^^^ m }) ∧
    ReadForm [0x51#8, b] (.eorIzy b) (.izy b) 5 true (fun m u => zeroNegative (u.a ^^^ m) { u with a := u.a ^^^ m }) ∧
    ReadForm [0x24#8, b] (.bitZp b) (.zp b) 3 false (fun m u =>
      { u with flagZ := decide (u.a &&& m = 0#8), flagN := decide (128 ≤ m.toNat),
               flagV := decide (64 ≤ m.toNat % 128) }) ∧
    ReadForm [0x2C#8, loByte w, hiByte w] (.bitAbs w) (.abs w) 4 false (fun m u =>
      { u with flagZ := decide (u.a &&& m = 0#8), flagN := decide (128 ≤ m.toNat),
               flagV := decide (64 ≤ m.toNat % 128) })

/-- Each opcode byte (0xEB too) decodes to its form; A becomes the sum or difference modulo 256, C the
unsigned carry or no-borrow, V whether the signed sum or difference leaves -128 to 127, Z and N from the
result, whatever D holds; nothing else changes. (R160, R164, R165, R253.) -/
def Obligations.AddAndSubtractForms : Prop :=
  ∀ (b : Byte) (w : Word),
    ReadForm [0x69#8, b] (.adcImm b) (.imm b) 2 false (addLaw) ∧
    ReadForm [0x65#8, b] (.adcZp b) (.zp b) 3 false (addLaw) ∧
    ReadForm [0x75#8, b] (.adcZpx b) (.zpx b) 4 false (addLaw) ∧
    ReadForm [0x6D#8, loByte w, hiByte w] (.adcAbs w) (.abs w) 4 false (addLaw) ∧
    ReadForm [0x7D#8, loByte w, hiByte w] (.adcAbx w) (.abx w) 4 true (addLaw) ∧
    ReadForm [0x79#8, loByte w, hiByte w] (.adcAby w) (.aby w) 4 true (addLaw) ∧
    ReadForm [0x61#8, b] (.adcIzx b) (.izx b) 6 false (addLaw) ∧
    ReadForm [0x71#8, b] (.adcIzy b) (.izy b) 5 true (addLaw) ∧
    ReadForm [0xE9#8, b] (.sbcImm b) (.imm b) 2 false (subtractLaw) ∧
    ReadForm [0xEB#8, b] (.sbcEB b) (.imm b) 2 false (subtractLaw) ∧
    ReadForm [0xE5#8, b] (.sbcZp b) (.zp b) 3 false (subtractLaw) ∧
    ReadForm [0xF5#8, b] (.sbcZpx b) (.zpx b) 4 false (subtractLaw) ∧
    ReadForm [0xED#8, loByte w, hiByte w] (.sbcAbs w) (.abs w) 4 false (subtractLaw) ∧
    ReadForm [0xFD#8, loByte w, hiByte w] (.sbcAbx w) (.abx w) 4 true (subtractLaw) ∧
    ReadForm [0xF9#8, loByte w, hiByte w] (.sbcAby w) (.aby w) 4 true (subtractLaw) ∧
    ReadForm [0xE1#8, b] (.sbcIzx b) (.izx b) 6 false (subtractLaw) ∧
    ReadForm [0xF1#8, b] (.sbcIzy b) (.izy b) 5 true (subtractLaw)

/-- C is the unsigned comparison, Z equality, N bit 7 of the wrapped difference; the register, V and all else
stay. (R166, R167, R168.) -/
def Obligations.CompareForms : Prop :=
  ∀ (b : Byte) (w : Word),
    ReadForm [0xC9#8, b] (.cmpImm b) (.imm b) 2 false (fun m u => compareLaw u.a m u) ∧
    ReadForm [0xC5#8, b] (.cmpZp b) (.zp b) 3 false (fun m u => compareLaw u.a m u) ∧
    ReadForm [0xD5#8, b] (.cmpZpx b) (.zpx b) 4 false (fun m u => compareLaw u.a m u) ∧
    ReadForm [0xCD#8, loByte w, hiByte w] (.cmpAbs w) (.abs w) 4 false (fun m u => compareLaw u.a m u) ∧
    ReadForm [0xDD#8, loByte w, hiByte w] (.cmpAbx w) (.abx w) 4 true (fun m u => compareLaw u.a m u) ∧
    ReadForm [0xD9#8, loByte w, hiByte w] (.cmpAby w) (.aby w) 4 true (fun m u => compareLaw u.a m u) ∧
    ReadForm [0xC1#8, b] (.cmpIzx b) (.izx b) 6 false (fun m u => compareLaw u.a m u) ∧
    ReadForm [0xD1#8, b] (.cmpIzy b) (.izy b) 5 true (fun m u => compareLaw u.a m u) ∧
    ReadForm [0xE0#8, b] (.cpxImm b) (.imm b) 2 false (fun m u => compareLaw u.x m u) ∧
    ReadForm [0xE4#8, b] (.cpxZp b) (.zp b) 3 false (fun m u => compareLaw u.x m u) ∧
    ReadForm [0xEC#8, loByte w, hiByte w] (.cpxAbs w) (.abs w) 4 false (fun m u => compareLaw u.x m u) ∧
    ReadForm [0xC0#8, b] (.cpyImm b) (.imm b) 2 false (fun m u => compareLaw u.y m u) ∧
    ReadForm [0xC4#8, b] (.cpyZp b) (.zp b) 3 false (fun m u => compareLaw u.y m u) ∧
    ReadForm [0xCC#8, loByte w, hiByte w] (.cpyAbs w) (.abs w) 4 false (fun m u => compareLaw u.y m u)

/-- The result is the byte doubled, halved, or rotated through the carry, C the bit moved out, Z and N from
the result; on A nothing else changes; in memory one read and one write at the effective address, A kept;
the cost is that of the row of the machine's cost table, by default that of R109. (R181, R182, R183,
R184.) -/
def Obligations.ShiftForms : Prop :=
  ∀ (b : Byte) (w : Word),
    PlainForm [0x0A#8] .aslAcc 2
      (fun s => zeroNegative (aslResult s.a s.flagC)
        { s with a := aslResult s.a s.flagC, flagC := highBit s.a s.flagC }) ∧
    ModifyForm [0x06#8, b] (.aslZp b) (.zp b) 5 aslResult highBit
      (zeroNegative) ∧
    ModifyForm [0x16#8, b] (.aslZpx b) (.zpx b) 6 aslResult highBit
      (zeroNegative) ∧
    ModifyForm [0x0E#8, loByte w, hiByte w] (.aslAbs w) (.abs w) 6 aslResult highBit
      (zeroNegative) ∧
    ModifyForm [0x1E#8, loByte w, hiByte w] (.aslAbx w) (.abx w) 7 aslResult highBit
      (zeroNegative) ∧
    PlainForm [0x4A#8] .lsrAcc 2
      (fun s => zeroNegative (lsrResult s.a s.flagC)
        { s with a := lsrResult s.a s.flagC, flagC := lowBit s.a s.flagC }) ∧
    ModifyForm [0x46#8, b] (.lsrZp b) (.zp b) 5 lsrResult lowBit
      (zeroNegative) ∧
    ModifyForm [0x56#8, b] (.lsrZpx b) (.zpx b) 6 lsrResult lowBit
      (zeroNegative) ∧
    ModifyForm [0x4E#8, loByte w, hiByte w] (.lsrAbs w) (.abs w) 6 lsrResult lowBit
      (zeroNegative) ∧
    ModifyForm [0x5E#8, loByte w, hiByte w] (.lsrAbx w) (.abx w) 7 lsrResult lowBit
      (zeroNegative) ∧
    PlainForm [0x2A#8] .rolAcc 2
      (fun s => zeroNegative (rolResult s.a s.flagC)
        { s with a := rolResult s.a s.flagC, flagC := highBit s.a s.flagC }) ∧
    ModifyForm [0x26#8, b] (.rolZp b) (.zp b) 5 rolResult highBit
      (zeroNegative) ∧
    ModifyForm [0x36#8, b] (.rolZpx b) (.zpx b) 6 rolResult highBit
      (zeroNegative) ∧
    ModifyForm [0x2E#8, loByte w, hiByte w] (.rolAbs w) (.abs w) 6 rolResult highBit
      (zeroNegative) ∧
    ModifyForm [0x3E#8, loByte w, hiByte w] (.rolAbx w) (.abx w) 7 rolResult highBit
      (zeroNegative) ∧
    PlainForm [0x6A#8] .rorAcc 2
      (fun s => zeroNegative (rorResult s.a s.flagC)
        { s with a := rorResult s.a s.flagC, flagC := lowBit s.a s.flagC }) ∧
    ModifyForm [0x66#8, b] (.rorZp b) (.zp b) 5 rorResult lowBit
      (zeroNegative) ∧
    ModifyForm [0x76#8, b] (.rorZpx b) (.zpx b) 6 rorResult lowBit
      (zeroNegative) ∧
    ModifyForm [0x6E#8, loByte w, hiByte w] (.rorAbs w) (.abs w) 6 rorResult lowBit
      (zeroNegative) ∧
    ModifyForm [0x7E#8, loByte w, hiByte w] (.rorAbx w) (.abx w) 7 rorResult lowBit
      (zeroNegative)

/-- The byte or register one more or less modulo 256, Z and N from it; C, V and all else stay. (R185, R186,
R187, R188, R189, R190.) -/
def Obligations.IncrementDecrementForms : Prop :=
  ∀ (b : Byte) (w : Word),
    ModifyForm [0xE6#8, b] (.incZp b) (.zp b) 5 incResult sameCarry
      (zeroNegative) ∧
    ModifyForm [0xF6#8, b] (.incZpx b) (.zpx b) 6 incResult sameCarry
      (zeroNegative) ∧
    ModifyForm [0xEE#8, loByte w, hiByte w] (.incAbs w) (.abs w) 6 incResult sameCarry
      (zeroNegative) ∧
    ModifyForm [0xFE#8, loByte w, hiByte w] (.incAbx w) (.abx w) 7 incResult sameCarry
      (zeroNegative) ∧
    ModifyForm [0xC6#8, b] (.decZp b) (.zp b) 5 decResult sameCarry
      (zeroNegative) ∧
    ModifyForm [0xD6#8, b] (.decZpx b) (.zpx b) 6 decResult sameCarry
      (zeroNegative) ∧
    ModifyForm [0xCE#8, loByte w, hiByte w] (.decAbs w) (.abs w) 6 decResult sameCarry
      (zeroNegative) ∧
    ModifyForm [0xDE#8, loByte w, hiByte w] (.decAbx w) (.abx w) 7 decResult sameCarry
      (zeroNegative) ∧
    PlainForm [0xE8#8] .inx 2 (fun s => zeroNegative (incResult s.x s.flagC) { s with x := incResult s.x s.flagC }) ∧
    PlainForm [0xC8#8] .iny 2 (fun s => zeroNegative (incResult s.y s.flagC) { s with y := incResult s.y s.flagC }) ∧
    PlainForm [0xCA#8] .dex 2 (fun s => zeroNegative (decResult s.x s.flagC) { s with x := decResult s.x s.flagC }) ∧
    PlainForm [0x88#8] .dey 2 (fun s => zeroNegative (decResult s.y s.flagC) { s with y := decResult s.y s.flagC })

/-- Each branch tests its flag; taken, PC becomes the next instruction's address plus the signed offset modulo
65536, in 3 cycles, 4 when that is another page; not taken, 2 cycles; no flag and nothing else changes.
The 2 is the default cost of the row; that another row of the machine's cost table replaces it is the
model's reading (log 12). The page comparison is with the next instruction (the spec's decision D26, log
5). (R200, R207, R208, R209, R210, R211, R212, R213, R214.) -/
def Obligations.BranchForms : Prop :=
  ∀ b : Byte,
    BranchForm [0x10#8, b] (.bpl b) b (fun s => !s.flagN) ∧
    BranchForm [0x30#8, b] (.bmi b) b (fun s => s.flagN) ∧
    BranchForm [0x50#8, b] (.bvc b) b (fun s => !s.flagV) ∧
    BranchForm [0x70#8, b] (.bvs b) b (fun s => s.flagV) ∧
    BranchForm [0x90#8, b] (.bcc b) b (fun s => !s.flagC) ∧
    BranchForm [0xB0#8, b] (.bcs b) b (fun s => s.flagC) ∧
    BranchForm [0xD0#8, b] (.bne b) b (fun s => !s.flagZ) ∧
    BranchForm [0xF0#8, b] (.beq b) b (fun s => s.flagZ)

/-- JMP absolute sets PC in 3 cycles; JMP indirect reads the low byte at the pointer and the high byte at the
next address of the same page, and sets PC, in 5 cycles; nothing else changes but what the two reads
change. The costs are the default rows of the cost table (log 12). The in-page wrap is the spec's decision
D15 (log 5). (R201, R202, R100, R60.) -/
def Obligations.JumpForms : Prop :=
  ∀ w : Word,
    PlainForm [0x4C#8, loByte w, hiByte w] (.jmpAbs w) 3 (fun s => { s with pc := w }) ∧
    Encodes [0x6C#8, loByte w, hiByte w] (.jmpInd w) ∧
    ∀ s,
      let next : Word := BitVec.ofNat 16 (w.toNat / 256 * 256 + (w.toNat + 1) % 256)
      let u := afterRead s w
      exec (.jmpInd w) s = .next
        { afterRead u next with
          pc := BitVec.ofNat 16 ((busPeek s w).toNat + 256 * (busPeek u next).toNat)
          cyclesRemaining := costOr s (.jmpInd w) 5 false false }

/-- JSR pushes PC - 1, high byte first, lowers S by 2 and jumps, in 6 cycles; RTS pulls two bytes and sets PC
to their value plus 1 modulo 65536, in 6 cycles; nothing else changes. The costs are the default rows of
the cost table (log 12). (R203, R204.) -/
def Obligations.CallAndReturnForms : Prop :=
  ∀ w : Word,
    PlainForm [0x20#8, loByte w, hiByte w] (.jsr w) 6
      (fun s => { pushPair ((s.pc.toNat + 65535) % 65536) s with pc := w }) ∧
    PlainForm [0x60#8] .rts 6
      (fun s => { s with
        sp := s.sp + 2#8
        pc := pairAt s (stackAt (s.sp + 1#8)) (stackAt (s.sp + 2#8)) + 1#16 })

/-- BRK pushes its address plus 2 and the status byte with bits 5 and 4 set, sets I, keeps D and the other
flags and loads PC from 0xFFFE, in 7 cycles; RTI pulls the six flags and PC, in 6 cycles; the costs are
the default rows of the cost table (log 12). That BRK shares the vector 0xFFFE is the spec's decision D23
(log 5). (R205, R206, R308, R313.) -/
def Obligations.BreakAndReturnForms : Prop :=
  PlainForm [0x00#8] .brk 7 (fun s => entryLaw 0xFFFE#16 ((s.pc.toNat + 1) % 65536) true s) ∧
    PlainForm [0x40#8] .rti 6
      (fun s => loadStatus (busPeek s (stackAt (s.sp + 1#8)))
        { s with
          sp := s.sp + 3#8
          pc := pairAt s (stackAt (s.sp + 2#8)) (stackAt (s.sp + 3#8)) })

/-- Each sets or clears its flag and changes nothing else; 2 cycles each in the default cost table (R109).
(R230, R231, R232, R233, R234, R235, R236.) -/
def Obligations.FlagInstructionForms : Prop :=
  PlainForm [0x18#8] .clc 2 (fun s => { s with flagC := false }) ∧
    PlainForm [0x38#8] .sec 2 (fun s => { s with flagC := true }) ∧
    PlainForm [0x58#8] .cli 2 (fun s => { s with flagI := false }) ∧
    PlainForm [0x78#8] .sei 2 (fun s => { s with flagI := true }) ∧
    PlainForm [0xB8#8] .clv 2 (fun s => { s with flagV := false }) ∧
    PlainForm [0xD8#8] .cld 2 (fun s => { s with flagD := false }) ∧
    PlainForm [0xF8#8] .sed 2 (fun s => { s with flagD := true })

/-- By the default rows of the cost table (log 12) implied and immediate NOPs take 2 cycles, zero page 3,
indexed zero page and absolute 4, absolute,X 4 or 5 with a page crossing; no register, flag or memory
changes and no operand is read (the spec's decision D11, log 19). (R237, R254, R255, R256.) -/
def Obligations.NopForms : Prop :=
  let nopAbx (i : Instr) (w : Word) (s : State) : Nat :=
      costOr s i 4 true (decide (255 < w.toNat % 256 + s.x.toNat))
    ∀ (b : Byte) (w : Word),
    PlainForm [0x1A#8] .nop1A 2 (fun s => s) ∧
    PlainForm [0x3A#8] .nop3A 2 (fun s => s) ∧
    PlainForm [0x5A#8] .nop5A 2 (fun s => s) ∧
    PlainForm [0x7A#8] .nop7A 2 (fun s => s) ∧
    PlainForm [0xDA#8] .nopDA 2 (fun s => s) ∧
    PlainForm [0xEA#8] .nop 2 (fun s => s) ∧
    PlainForm [0xFA#8] .nopFA 2 (fun s => s) ∧
    PlainForm [0x80#8, b] (.nop80 b) 2 (fun s => s) ∧
    PlainForm [0x82#8, b] (.nop82 b) 2 (fun s => s) ∧
    PlainForm [0x89#8, b] (.nop89 b) 2 (fun s => s) ∧
    PlainForm [0xC2#8, b] (.nopC2 b) 2 (fun s => s) ∧
    PlainForm [0xE2#8, b] (.nopE2 b) 2 (fun s => s) ∧
    PlainForm [0x04#8, b] (.nop04 b) 3 (fun s => s) ∧
    PlainForm [0x44#8, b] (.nop44 b) 3 (fun s => s) ∧
    PlainForm [0x64#8, b] (.nop64 b) 3 (fun s => s) ∧
    PlainForm [0x14#8, b] (.nop14 b) 4 (fun s => s) ∧
    PlainForm [0x34#8, b] (.nop34 b) 4 (fun s => s) ∧
    PlainForm [0x54#8, b] (.nop54 b) 4 (fun s => s) ∧
    PlainForm [0x74#8, b] (.nop74 b) 4 (fun s => s) ∧
    PlainForm [0xD4#8, b] (.nopD4 b) 4 (fun s => s) ∧
    PlainForm [0xF4#8, b] (.nopF4 b) 4 (fun s => s) ∧
    PlainForm [0x0C#8, loByte w, hiByte w] (.nop0C w) 4 (fun s => s) ∧
    (Encodes [0x1C#8, loByte w, hiByte w] (.nop1C w) ∧
      ∀ s, exec (.nop1C w) s = .next { s with cyclesRemaining := nopAbx (.nop1C w) w s }) ∧
    (Encodes [0x3C#8, loByte w, hiByte w] (.nop3C w) ∧
      ∀ s, exec (.nop3C w) s = .next { s with cyclesRemaining := nopAbx (.nop3C w) w s }) ∧
    (Encodes [0x5C#8, loByte w, hiByte w] (.nop5C w) ∧
      ∀ s, exec (.nop5C w) s = .next { s with cyclesRemaining := nopAbx (.nop5C w) w s }) ∧
    (Encodes [0x7C#8, loByte w, hiByte w] (.nop7C w) ∧
      ∀ s, exec (.nop7C w) s = .next { s with cyclesRemaining := nopAbx (.nop7C w) w s }) ∧
    (Encodes [0xDC#8, loByte w, hiByte w] (.nopDC w) ∧
      ∀ s, exec (.nopDC w) s = .next { s with cyclesRemaining := nopAbx (.nopDC w) w s }) ∧
    (Encodes [0xFC#8, loByte w, hiByte w] (.nopFC w) ∧
      ∀ s, exec (.nopFC w) s = .next { s with cyclesRemaining := nopAbx (.nopFC w) w s })

/-- One read and one write of the shifted, incremented or decremented byte, then OR, AND, exclusive OR, the
addition with the carry the rotate produced, the comparison or the subtraction with A; flags by the same
laws; the cost is that of the row of the machine's cost table, by default that of R109; nothing else
changes. (R241, R242, R243, R244, R247, R248.) -/
def Obligations.CombinedModifyForms : Prop :=
  ∀ (b : Byte) (w : Word),
    ModifyForm [0x07#8, b] (.sloZp b) (.zp b) 5 aslResult highBit
      (fun r u => zeroNegative (u.a ||| r) { u with a := u.a ||| r }) ∧
    ModifyForm [0x17#8, b] (.sloZpx b) (.zpx b) 6 aslResult highBit
      (fun r u => zeroNegative (u.a ||| r) { u with a := u.a ||| r }) ∧
    ModifyForm [0x0F#8, loByte w, hiByte w] (.sloAbs w) (.abs w) 6 aslResult highBit
      (fun r u => zeroNegative (u.a ||| r) { u with a := u.a ||| r }) ∧
    ModifyForm [0x1F#8, loByte w, hiByte w] (.sloAbx w) (.abx w) 7 aslResult highBit
      (fun r u => zeroNegative (u.a ||| r) { u with a := u.a ||| r }) ∧
    ModifyForm [0x1B#8, loByte w, hiByte w] (.sloAby w) (.aby w) 7 aslResult highBit
      (fun r u => zeroNegative (u.a ||| r) { u with a := u.a ||| r }) ∧
    ModifyForm [0x03#8, b] (.sloIzx b) (.izx b) 8 aslResult highBit
      (fun r u => zeroNegative (u.a ||| r) { u with a := u.a ||| r }) ∧
    ModifyForm [0x13#8, b] (.sloIzy b) (.izy b) 8 aslResult highBit
      (fun r u => zeroNegative (u.a ||| r) { u with a := u.a ||| r }) ∧
    ModifyForm [0x27#8, b] (.rlaZp b) (.zp b) 5 rolResult highBit
      (fun r u => zeroNegative (u.a &&& r) { u with a := u.a &&& r }) ∧
    ModifyForm [0x37#8, b] (.rlaZpx b) (.zpx b) 6 rolResult highBit
      (fun r u => zeroNegative (u.a &&& r) { u with a := u.a &&& r }) ∧
    ModifyForm [0x2F#8, loByte w, hiByte w] (.rlaAbs w) (.abs w) 6 rolResult highBit
      (fun r u => zeroNegative (u.a &&& r) { u with a := u.a &&& r }) ∧
    ModifyForm [0x3F#8, loByte w, hiByte w] (.rlaAbx w) (.abx w) 7 rolResult highBit
      (fun r u => zeroNegative (u.a &&& r) { u with a := u.a &&& r }) ∧
    ModifyForm [0x3B#8, loByte w, hiByte w] (.rlaAby w) (.aby w) 7 rolResult highBit
      (fun r u => zeroNegative (u.a &&& r) { u with a := u.a &&& r }) ∧
    ModifyForm [0x23#8, b] (.rlaIzx b) (.izx b) 8 rolResult highBit
      (fun r u => zeroNegative (u.a &&& r) { u with a := u.a &&& r }) ∧
    ModifyForm [0x33#8, b] (.rlaIzy b) (.izy b) 8 rolResult highBit
      (fun r u => zeroNegative (u.a &&& r) { u with a := u.a &&& r }) ∧
    ModifyForm [0x47#8, b] (.sreZp b) (.zp b) 5 lsrResult lowBit
      (fun r u => zeroNegative (u.a ^^^ r) { u with a := u.a ^^^ r }) ∧
    ModifyForm [0x57#8, b] (.sreZpx b) (.zpx b) 6 lsrResult lowBit
      (fun r u => zeroNegative (u.a ^^^ r) { u with a := u.a ^^^ r }) ∧
    ModifyForm [0x4F#8, loByte w, hiByte w] (.sreAbs w) (.abs w) 6 lsrResult lowBit
      (fun r u => zeroNegative (u.a ^^^ r) { u with a := u.a ^^^ r }) ∧
    ModifyForm [0x5F#8, loByte w, hiByte w] (.sreAbx w) (.abx w) 7 lsrResult lowBit
      (fun r u => zeroNegative (u.a ^^^ r) { u with a := u.a ^^^ r }) ∧
    ModifyForm [0x5B#8, loByte w, hiByte w] (.sreAby w) (.aby w) 7 lsrResult lowBit
      (fun r u => zeroNegative (u.a ^^^ r) { u with a := u.a ^^^ r }) ∧
    ModifyForm [0x43#8, b] (.sreIzx b) (.izx b) 8 lsrResult lowBit
      (fun r u => zeroNegative (u.a ^^^ r) { u with a := u.a ^^^ r }) ∧
    ModifyForm [0x53#8, b] (.sreIzy b) (.izy b) 8 lsrResult lowBit
      (fun r u => zeroNegative (u.a ^^^ r) { u with a := u.a ^^^ r }) ∧
    ModifyForm [0x67#8, b] (.rraZp b) (.zp b) 5 rorResult lowBit
      (addLaw) ∧
    ModifyForm [0x77#8, b] (.rraZpx b) (.zpx b) 6 rorResult lowBit
      (addLaw) ∧
    ModifyForm [0x6F#8, loByte w, hiByte w] (.rraAbs w) (.abs w) 6 rorResult lowBit
      (addLaw) ∧
    ModifyForm [0x7F#8, loByte w, hiByte w] (.rraAbx w) (.abx w) 7 rorResult lowBit
      (addLaw) ∧
    ModifyForm [0x7B#8, loByte w, hiByte w] (.rraAby w) (.aby w) 7 rorResult lowBit
      (addLaw) ∧
    ModifyForm [0x63#8, b] (.rraIzx b) (.izx b) 8 rorResult lowBit
      (addLaw) ∧
    ModifyForm [0x73#8, b] (.rraIzy b) (.izy b) 8 rorResult lowBit
      (addLaw) ∧
    ModifyForm [0xC7#8, b] (.dcpZp b) (.zp b) 5 decResult sameCarry
      (fun r u => compareLaw u.a r u) ∧
    ModifyForm [0xD7#8, b] (.dcpZpx b) (.zpx b) 6 decResult sameCarry
      (fun r u => compareLaw u.a r u) ∧
    ModifyForm [0xCF#8, loByte w, hiByte w] (.dcpAbs w) (.abs w) 6 decResult sameCarry
      (fun r u => compareLaw u.a r u) ∧
    ModifyForm [0xDF#8, loByte w, hiByte w] (.dcpAbx w) (.abx w) 7 decResult sameCarry
      (fun r u => compareLaw u.a r u) ∧
    ModifyForm [0xDB#8, loByte w, hiByte w] (.dcpAby w) (.aby w) 7 decResult sameCarry
      (fun r u => compareLaw u.a r u) ∧
    ModifyForm [0xC3#8, b] (.dcpIzx b) (.izx b) 8 decResult sameCarry
      (fun r u => compareLaw u.a r u) ∧
    ModifyForm [0xD3#8, b] (.dcpIzy b) (.izy b) 8 decResult sameCarry
      (fun r u => compareLaw u.a r u) ∧
    ModifyForm [0xE7#8, b] (.iscZp b) (.zp b) 5 incResult sameCarry
      (subtractLaw) ∧
    ModifyForm [0xF7#8, b] (.iscZpx b) (.zpx b) 6 incResult sameCarry
      (subtractLaw) ∧
    ModifyForm [0xEF#8, loByte w, hiByte w] (.iscAbs w) (.abs w) 6 incResult sameCarry
      (subtractLaw) ∧
    ModifyForm [0xFF#8, loByte w, hiByte w] (.iscAbx w) (.abx w) 7 incResult sameCarry
      (subtractLaw) ∧
    ModifyForm [0xFB#8, loByte w, hiByte w] (.iscAby w) (.aby w) 7 incResult sameCarry
      (subtractLaw) ∧
    ModifyForm [0xE3#8, b] (.iscIzx b) (.izx b) 8 incResult sameCarry
      (subtractLaw) ∧
    ModifyForm [0xF3#8, b] (.iscIzy b) (.izy b) 8 incResult sameCarry
      (subtractLaw)

/-- AND with the operand, then C from bit 7 (ANC), a right shift (ALR), a right rotate with C from bit 6 and V
from bits 6 and 5 of the result (ARR), or X as A AND X less the operand with C when there is no borrow
(AXS); Z and N from the result; 2 cycles in the default cost table (R109); nothing else changes. (R249,
R250, R251, R252.) -/
def Obligations.ImmediateUnofficialForms : Prop :=
  ∀ b : Byte,
    ReadForm [0x0B#8, b] (.anc0B b) (.imm b) 2 false (fun m u => zeroNegative (u.a &&& m)
      { u with a := u.a &&& m, flagC := decide (128 ≤ (u.a &&& m).toNat) }) ∧
    ReadForm [0x2B#8, b] (.anc2B b) (.imm b) 2 false (fun m u => zeroNegative (u.a &&& m)
      { u with a := u.a &&& m, flagC := decide (128 ≤ (u.a &&& m).toNat) }) ∧
    ReadForm [0x4B#8, b] (.alr b) (.imm b) 2 false (fun m u => zeroNegative (lsrResult (u.a &&& m) u.flagC)
      { u with a := lsrResult (u.a &&& m) u.flagC, flagC := lowBit (u.a &&& m) u.flagC }) ∧
    ReadForm [0x6B#8, b] (.arr b) (.imm b) 2 false (fun m u =>
      let r := rorResult (u.a &&& m) u.flagC
      zeroNegative r
        { u with a := r, flagC := decide (64 ≤ r.toNat % 128),
                 flagV := decide (64 ≤ r.toNat % 128) != decide (32 ≤ r.toNat % 64) }) ∧
    ReadForm [0xCB#8, b] (.axs b) (.imm b) 2 false (fun m u =>
      let t := (u.a &&& u.x).toNat
      let r : Byte := BitVec.ofNat 8 ((t + 256 - m.toNat) % 256)
      zeroNegative r { u with x := r, flagC := decide (m.toNat ≤ t) })

/-- Each of the twelve sets PC back by one, to its own address, and changes nothing else; 2 cycles by default
(log 12). PC on the opcode itself is the spec's decision D14 (log 5). (R260.) -/
def Obligations.KillForms : Prop :=
  PlainForm [0x02#8] .kil02 2 (fun s => { s with pc := s.pc - 1#16 }) ∧
    PlainForm [0x12#8] .kil12 2 (fun s => { s with pc := s.pc - 1#16 }) ∧
    PlainForm [0x22#8] .kil22 2 (fun s => { s with pc := s.pc - 1#16 }) ∧
    PlainForm [0x32#8] .kil32 2 (fun s => { s with pc := s.pc - 1#16 }) ∧
    PlainForm [0x42#8] .kil42 2 (fun s => { s with pc := s.pc - 1#16 }) ∧
    PlainForm [0x52#8] .kil52 2 (fun s => { s with pc := s.pc - 1#16 }) ∧
    PlainForm [0x62#8] .kil62 2 (fun s => { s with pc := s.pc - 1#16 }) ∧
    PlainForm [0x72#8] .kil72 2 (fun s => { s with pc := s.pc - 1#16 }) ∧
    PlainForm [0x92#8] .kil92 2 (fun s => { s with pc := s.pc - 1#16 }) ∧
    PlainForm [0xB2#8] .kilB2 2 (fun s => { s with pc := s.pc - 1#16 }) ∧
    PlainForm [0xD2#8] .kilD2 2 (fun s => { s with pc := s.pc - 1#16 }) ∧
    PlainForm [0xF2#8] .kilF2 2 (fun s => { s with pc := s.pc - 1#16 })

/-- From a state whose work RAM is in canonical form, RTS in the state JSR leaves sets PC to the address after
the JSR and S, A, X, Y and the flags to what they were. (R203, R204, R22.) -/
def Obligations.CallThenReturn : Prop :=
  ∀ (w : Word) (s : State), Memory.wf s.ram = true → ∃ t u,
    exec (.jsr w) s = .next t ∧ exec .rts t = .next u ∧
      u.pc = s.pc ∧ u.sp = s.sp ∧ u.a = s.a ∧ u.x = s.x ∧ u.y = s.y ∧ statusByte true u = statusByte true s

/-- From a state whose work RAM is in canonical form: RTI in the state an interrupt service leaves resumes at
the interrupted PC with S, A, X, Y and all six flags as before, I included; RTI after BRK resumes at the
BRK address plus 2 (one past PC). (R205, R206, R306, R313.) -/
def Obligations.ReturnUndoesEntry : Prop :=
  ∀ s : State, Memory.wf s.ram = true →
    (∀ t, t = serviceNmi s ∨ t = serviceIrq s → ∃ u, exec .rti t = .next u ∧
      u.pc = s.pc ∧ u.sp = s.sp ∧ u.a = s.a ∧ u.x = s.x ∧ u.y = s.y ∧
        u.flagN = s.flagN ∧ u.flagV = s.flagV ∧ u.flagD = s.flagD ∧ u.flagI = s.flagI ∧
        u.flagZ = s.flagZ ∧ u.flagC = s.flagC) ∧
    ∃ t u, exec .brk s = .next t ∧ exec .rti t = .next u ∧
      u.pc = s.pc + 1#16 ∧ u.sp = s.sp ∧ u.a = s.a ∧ u.x = s.x ∧ u.y = s.y ∧
        u.flagN = s.flagN ∧ u.flagV = s.flagV ∧ u.flagD = s.flagD ∧ u.flagI = s.flagI ∧
        u.flagZ = s.flagZ ∧ u.flagC = s.flagC

/-- With no cycles left, the CPU step takes the NMI through 0xFFFA, clearing the latch, whatever I is; with no
NMI, an IRQ through 0xFFFE when I is 0, the level kept; both push PC and the status byte with the break
bit 0, set I and leave 6 cycles; otherwise the fetched instruction runs. The priority and the clearing of
the latch are the spec's decisions D7 and D8 (log 5). (R300, R303, R304, R305, R306, R311, R312.) -/
def Obligations.BoundaryServesNmiThenIrq : Prop :=
  ∀ s : State, s.cyclesRemaining = 0 →
    (s.nmiPending = true → cpuStep s = .next
      { entryLaw 0xFFFA#16 s.pc.toNat false { s with nmiPending := false } with cyclesRemaining := 6 }) ∧
    (s.nmiPending = false → s.irqPending = true → s.flagI = false → cpuStep s = .next
      { entryLaw 0xFFFE#16 s.pc.toNat false s with cyclesRemaining := 6 }) ∧
    (s.nmiPending = false → (s.irqPending = false ∨ s.flagI = true) → cpuStep s =
      thenDo (exec (fetchInstr s).1 (fetchInstr s).2)
        fun t => { t with cyclesRemaining := t.cyclesRemaining - 1 })

/-- After a step at a processor cycle, irqPending is the OR of the mapper, DMC and frame flags as they were
before it; at any other master cycle it stays. (R361, R24, R310.) -/
def Obligations.IrqLevelRecomputed : Prop :=
  ∀ s t : State, step s = .next t →
    (s.masterCycle % 3 = 0 → t.irqPending = (cartIrq s.cart || s.apu.dmcIrq || s.apu.frameIrq)) ∧
    (s.masterCycle % 3 ≠ 0 → t.irqPending = s.irqPending)

/-- If a step leaves the NMI latch 0 where it was 1, the step was a processor cycle at an instruction
boundary, no DMA in progress: the CPU serviced the NMI and began its 7 cycles (6 left). (R304, R315,
R353.) -/
def Obligations.NmiLatchClearedOnlyByService : Prop :=
  ∀ s t : State, step s = .next t → s.nmiPending = true → t.nmiPending = false →
    s.masterCycle % 3 = 0 ∧ s.inDma = false ∧ s.cyclesRemaining = 0 ∧ t.cyclesRemaining = 6 ∧ t.flagI = true

/-- With work RAM in canonical form, after a write below 0x2000 every address of the bus reads the byte
written if it is a mirror of the address written, and otherwise what it read before. (R53.) -/
def Obligations.WorkRamReadAfterWrite : Prop :=
  ∀ (s : State) (a b : Word) (x : Byte), Memory.wf s.ram = true → a.toNat < 0x2000 →
    busPeek (busWrite s a x) b =
      (if b.toNat < 0x2000 ∧ b.toNat % 0x800 = a.toNat % 0x800 then x else busPeek s b) ∧
    (b.toNat < 0x2000 → afterRead s b = s)

/-- Any other address: nothing. Register 2: the vblank flag and the write toggle are cleared. 0x4015: the
frame interrupt flag is cleared. 0x4016 and 0x4017: the port's shift register moves right by one and fills
with 1. Register 7: only the read buffer, the VRAM address and variant D's counter can change, never the
cartridge's memories. (R61, R389, R346, R501.) -/
def Obligations.ReadSideEffects : Prop :=
  ∀ (s : State) (a : Word),
    (¬ ReadEffectAddress a → afterRead s a = s) ∧
    (0x2000 ≤ a.toNat → a.toNat < 0x4000 → a.toNat % 8 = 2 →
      afterRead s a = { s with ppu := { s.ppu with vblank := false, w := false } }) ∧
    (0x2000 ≤ a.toNat → a.toNat < 0x4000 → a.toNat % 8 = 7 →
      ∃ (v : BitVec 15) (rb : Byte) (regs : Cartridge → MapperRegs), afterRead s a =
        { s with ppu := { s.ppu with v := v, readBuffer := rb },
                 cart := s.cart.map fun c => { c with regs := regs c } } ∧
        ∀ c : Cartridge, regs c = c.regs ∨ ∃ r n reload irq a12, c.regs = .variantD r ∧
          regs c = .variantD
            { r with irqCounter := n, irqReload := reload, mapperIrq := irq, lastA12 := a12 }) ∧
    afterRead s 0x4015#16 = { s with apu := { s.apu with frameIrq := false } } ∧
    afterRead s 0x4016#16 =
      { s with port1 := { s.port1 with latched := BitVec.ofNat 8 (s.port1.latched.toNat / 2 + 128) } } ∧
    afterRead s 0x4017#16 =
      { s with port2 := { s.port2 with latched := BitVec.ofNat 8 (s.port2.latched.toNat / 2 + 128) } }

/-- Picture-unit registers 0, 1, 3, 5, 6, 0x4000 to 0x4014, 0x4018 to 0x401F, 0x4020 to 0x5FFF and program RAM
a variant lacks read 0 with no effect (the spec's decision D16, log 18); writes to register 2, 0x4018 to
0x401F, 0x4020 to 0x5FFF and absent program RAM change nothing. (R71, R62, R386, R397, R527.) -/
def Obligations.UnmappedReadsZeroWritesIgnored : Prop :=
  ∀ (s : State) (a : Word) (x : Byte),
    let window := 0x2000 ≤ a.toNat ∧ a.toNat < 0x4000
    let noRam := 0x6000 ≤ a.toNat ∧ a.toNat < 0x8000 ∧ ∀ c, s.cart = some c → c.regs.prgRamOn = false
    ((window ∧ (a.toNat % 8 = 0 ∨ a.toNat % 8 = 1 ∨ a.toNat % 8 = 3 ∨ a.toNat % 8 = 5 ∨ a.toNat % 8 = 6)) ∨
        (0x4000 ≤ a.toNat ∧ a.toNat ≤ 0x4014) ∨ (0x4018 ≤ a.toNat ∧ a.toNat < 0x6000) ∨ noRam →
      busPeek s a = 0x00#8 ∧ afterRead s a = s) ∧
    ((window ∧ a.toNat % 8 = 2) ∨ (0x4018 ≤ a.toNat ∧ a.toNat < 0x6000) ∨ noRam → busWrite s a x = s)

/-- Whatever instruction, interrupt, DMA cycle, audio or picture access a step performs, the cartridge keeps
its image byte for byte, its header and its variant; a cartridge neither appears nor vanishes; and the
arguments the machine was given stay (logs 4, 9, 12, 13). (R33, R528, R529, R590.) -/
def Obligations.ImageAndVariantFixed : Prop :=
  ∀ s t : State, step s = .next t → SameImage s t ∧ t.args = s.args

/-- For every instruction that completes: A, X, Y and S keep their values unless the instruction is one that
the rules list as writing it; the IRQ level, the master-cycle count, the held buttons, the DMA byte and
the machine's arguments (logs 4, 9, 12, 13) never change. (R20, R21, R22, R24.) -/
def Obligations.RegisterFrame : Prop :=
  ∀ (i : Instr) (s t : State), exec i s = .next t →
    ((opcodeOf i).toNat ∉ writesA → t.a = s.a) ∧
    ((opcodeOf i).toNat ∉ writesX → t.x = s.x) ∧
    ((opcodeOf i).toNat ∉ writesY → t.y = s.y) ∧
    ((opcodeOf i).toNat ∉ writesS → t.sp = s.sp) ∧
    t.irqPending = s.irqPending ∧ t.masterCycle = s.masterCycle ∧ t.dmaValue = s.dmaValue ∧
    t.port1.current = s.port1.current ∧ t.port2.current = s.port2.current ∧
    t.args = s.args

/-- For every instruction that completes: C, Z, N, V, I and D keep their values unless the instruction is one
that the table of flags lists for it. (R23.) -/
def Obligations.FlagFrame : Prop :=
  ∀ (i : Instr) (s t : State), exec i s = .next t →
    ((opcodeOf i).toNat ∉ writesC → t.flagC = s.flagC) ∧
    ((opcodeOf i).toNat ∉ writesZ → t.flagZ = s.flagZ) ∧
    ((opcodeOf i).toNat ∉ writesZ → t.flagN = s.flagN) ∧
    ((opcodeOf i).toNat ∉ writesV → t.flagV = s.flagV) ∧
    ((opcodeOf i).toNat ∉ writesI → t.flagI = s.flagI) ∧
    ((opcodeOf i).toNat ∉ writesD → t.flagD = s.flagD)

/-- For every instruction that neither stores, modifies memory nor pushes, when it completes every address of
work RAM and of the cartridge reads as before, and OAM, palette RAM, the cartridge's RAMs, the strobe and
the DMA registers are unchanged. (R63, R130, R170.) -/
def Obligations.NonStoringFrame : Prop :=
  ∀ (i : Instr) (s t : State), exec i s = .next t →
    (opcodeOf i).toNat ∉ stores → (opcodeOf i).toNat ∉ pushes →
    PlainMemoryKept s t ∧ SameImage s t ∧ t.ram = s.ram ∧ t.ppu.oam = s.ppu.oam ∧
      t.ppu.palette = s.ppu.palette ∧
      t.cart.map (fun c => (c.prgRam, c.chrRam, c.ntRam)) = s.cart.map (fun c => (c.prgRam, c.chrRam, c.ntRam)) ∧
      t.strobe = s.strobe ∧ t.inDma = s.inDma ∧ t.dmaPage = s.dmaPage ∧ t.dmaCounter = s.dmaCounter

/-- For every storing form, from a state in canonical form, with ea its effective address: when ea is in work
RAM or in program RAM that answers, ea and its mirrors then read the byte the form stores (A, X, Y, A and
X, or the shifted, rotated, incremented or decremented byte that was there); when ea is below 0x8000 every
address of plain memory but ea and its mirrors reads as before; when ea is a device register or a mapper
register, work RAM and program RAM are unchanged. A push form changes only the stack cells it pushes to:
PHA and PHP the one at S, JSR also the one at S - 1, BRK also the one at S - 2. (R62, R63, R529, R53,
R527, R180.) -/
def Obligations.StoringFrame : Prop :=
  ∀ (i : Instr) (s t : State), Memory.wf s.ram = true →
    (∀ c, s.cart = some c → Memory.wf c.prgRam = true) → exec i s = .next t →
    (∀ o, storeOperand i = some o →
      let ea := (locate o s).ea
      (ea.toNat < 0x2000 ∨ ProgramRamAddress s ea → ∀ a, SameCell a ea →
        busPeek t a = storedByte (opcodeOf i).toNat s (busPeek s ea)) ∧
      (ea.toNat < 0x8000 → ∀ a, PlainAddress a → ¬ SameCell a ea → busPeek t a = busPeek s a) ∧
      (0x2000 ≤ ea.toNat → t.ram = s.ram) ∧
      (ea.toNat < 0x6000 ∨ 0x8000 ≤ ea.toNat →
        t.cart.map (fun c => c.prgRam) = s.cart.map fun c => c.prgRam)) ∧
    ((opcodeOf i).toNat ∈ pushes →
      ∀ a, PlainAddress a → ¬ SameCell a (stackAt s.sp) →
        (i = .brk ∨ (∃ w, i = .jsr w) → ¬ SameCell a (stackAt (s.sp - 1#8))) →
        (i = .brk → ¬ SameCell a (stackAt (s.sp - 2#8))) → busPeek t a = busPeek s a)

/-- At every mirror: the status byte is vblank, sprite-zero hit and overflow in bits 7 to 5; a control write
sets the nametable bits of t, the fields of bits 2 to 7, and raises the NMI exactly when bit 7 rises while
vblank is set; a mask write sets its six fields; nothing else changes. (R387, R388, R389, R396, R54.) -/
def Obligations.StatusAndControlRegisters : Prop :=
  ∀ (s : State) (a : Word) (x : Byte), 0x2000 ≤ a.toNat → a.toNat < 0x4000 →
    (a.toNat % 8 = 2 → (busPeek s a).toNat =
      128 * carryNat s.ppu.vblank + 64 * carryNat s.ppu.spriteZeroHit + 32 * carryNat s.ppu.spriteOverflow) ∧
    (a.toNat % 8 = 0 → busWrite s a x =
      { s with
        ppu := { s.ppu with
          t := BitVec.ofNat 15
            (s.ppu.t.toNat / 4096 * 4096 + x.toNat % 4 * 1024 + s.ppu.t.toNat % 1024)
          incr32 := x.getLsbD 2, sprTable1 := x.getLsbD 3, bgTable1 := x.getLsbD 4
          tallSprites := x.getLsbD 5, slaveSelect := x.getLsbD 6, nmiEnable := x.getLsbD 7 }
        nmiPending := s.nmiPending || (x.getLsbD 7 && !s.ppu.nmiEnable && s.ppu.vblank) }) ∧
    (a.toNat % 8 = 1 → busWrite s a x =
      { s with ppu := { s.ppu with
          greyscale := x.getLsbD 0, bgLeft := x.getLsbD 1, sprLeft := x.getLsbD 2
          bgEnable := x.getLsbD 3, sprEnable := x.getLsbD 4, emphasis := BitVec.ofNat 3 (x.toNat / 32) } })

/-- At every mirror: scroll writes set coarse X and fine X, then fine Y and coarse Y; address writes set the
high six bits of t clearing bit 14, then the low byte, copying t to v; each flips the toggle; OAM address
and data writes; nothing else changes. Numbers are of t and v. (R390, R391, R392, R393.) -/
def Obligations.ScrollAndAddressRegisters : Prop :=
  ∀ (s : State) (a : Word) (x : Byte), 0x2000 ≤ a.toNat → a.toNat < 0x4000 →
    let t := s.ppu.t.toNat
    (a.toNat % 8 = 3 → busWrite s a x = { s with ppu := { s.ppu with oamAddr := x } }) ∧
    (a.toNat % 8 = 4 → busPeek s a = Memory.read s.ppu.oam s.ppu.oamAddr.toNat ∧
      busWrite s a x = { s with ppu := { s.ppu with
        oam := Memory.write s.ppu.oam s.ppu.oamAddr.toNat x, oamAddr := s.ppu.oamAddr + 1#8 } }) ∧
    (a.toNat % 8 = 5 → s.ppu.w = false → busWrite s a x = { s with ppu := { s.ppu with
        t := BitVec.ofNat 15 (t / 32 * 32 + x.toNat / 8), fineX := BitVec.ofNat 3 x.toNat, w := true } }) ∧
    (a.toNat % 8 = 5 → s.ppu.w = true → busWrite s a x = { s with ppu := { s.ppu with
        t := BitVec.ofNat 15 (x.toNat % 8 * 4096 + t / 1024 % 4 * 1024 + x.toNat / 8 * 32 + t % 32)
        w := false } }) ∧
    (a.toNat % 8 = 6 → s.ppu.w = false → busWrite s a x = { s with ppu := { s.ppu with
        t := BitVec.ofNat 15 (x.toNat % 64 * 256 + t % 256), w := true } }) ∧
    (a.toNat % 8 = 6 → s.ppu.w = true → busWrite s a x = { s with ppu := { s.ppu with
        t := BitVec.ofNat 15 (t / 256 * 256 + x.toNat), v := BitVec.ofNat 15 (t / 256 * 256 + x.toNat)
        w := false } })

/-- Outside rendering v advances by 1 or 32 modulo 2^15 and in a rendering line by the scroll increments; a
read below 0x3F00 returns the buffer, from 0x3F00 on the palette cell, and refills the buffer from the
picture bus; cells 0x10, 0x14, 0x18, 0x1C are cells 0x00, 0x04, 0x08, 0x0C; a palette write is read back
at every mirror, masked by greyscale. (R394, R395.) -/
def Obligations.DataPortAndPalette : Prop :=
  (∀ (s : State) (a : Word), 0x2000 ≤ a.toNat → a.toNat < 0x4000 → a.toNat % 8 = 7 →
      let at14 := s.ppu.v.toNat % 0x4000
      let next : BitVec 15 :=
        if s.ppu.renderingLine then incX (incY s.ppu.v)
        else BitVec.ofNat 15 (s.ppu.v.toNat + if s.ppu.incr32 then 32 else 1)
      busPeek s a =
        (if 0x3F00 ≤ at14 then s.ppu.paletteRead (BitVec.ofNat 14 at14) else s.ppu.readBuffer) ∧
      (afterRead s a).ppu.v = next ∧
      (afterRead s a).ppu.readBuffer = (picRead s.cart (BitVec.ofNat 14 at14)).1 ∧
      ∀ x, (busWrite s a x).ppu.v = next ∧
        (0x3F00 ≤ at14 → (busWrite s a x).cart = s.cart ∧
          (busWrite s a x).ppu.palette = Memory.write s.ppu.palette (palIndex (BitVec.ofNat 14 at14)) x) ∧
        (at14 < 0x3F00 → (busWrite s a x).ppu.palette = s.ppu.palette ∧
          (busWrite s a x).cart = picWrite s.cart (BitVec.ofNat 14 at14) x)) ∧
    (∀ a : BitVec 14, palIndex a =
      if a.toNat % 32 = 16 ∨ a.toNat % 32 = 20 ∨ a.toNat % 32 = 24 ∨ a.toNat % 32 = 28 then a.toNat % 32 - 16
      else a.toNat % 32) ∧
    ∀ (p : Ppu) (a b : BitVec 14) (x : Byte), Memory.wf p.palette = true →
      (p.paletteWrite a x).paletteRead b =
        (if palIndex b = palIndex a then (if p.greyscale then x &&& 0x30#8 else x) else p.paletteRead b)

/-- Coarse X counts modulo 32 and toggles the horizontal nametable bit on its wrap, keeping the other fields;
fine Y counts modulo 8; on its wrap coarse Y goes from 29 to 0 with a toggle of the vertical nametable
bit, from 31 to 0 without, otherwise one up; coarse X and the horizontal bit are kept. (R384, R385.) -/
def Obligations.ScrollIncrements : Prop :=
  ∀ v : BitVec 15,
    let n := v.toNat
    let x := (incX v).toNat
    let y := (incY v).toNat
    x % 32 = (n % 32 + 1) % 32 ∧ x / 32 % 32 = n / 32 % 32 ∧ x / 2048 = n / 2048 ∧
    x / 1024 % 2 = (if n % 32 = 31 then 1 - n / 1024 % 2 else n / 1024 % 2) ∧
    y % 32 = n % 32 ∧ y / 1024 % 2 = n / 1024 % 2 ∧ y / 4096 = (n / 4096 + 1) % 8 ∧
    y / 32 % 32 =
      (if n / 4096 = 7 then (if n / 32 % 32 = 29 ∨ n / 32 % 32 = 31 then 0 else n / 32 % 32 + 1)
       else n / 32 % 32) ∧
    y / 2048 % 2 = (if n / 4096 = 7 ∧ n / 32 % 32 = 29 then 1 - n / 2048 % 2 else n / 2048 % 2)

/-- A picture-unit step advances the dot, ending a line after dot 340, or after dot 339 on the pre-render line
of an odd frame, and the frame after scanline 261; vblank is set at scanline 241 dot 1, where the NMI is
raised if enabled and parity toggles if rendering and else clears (the spec's decision D41, log 5), and
cleared with the sprite flags at scanline 261 dot 1; at no other dot do these change, but for the two sprite
flags on visible lines. At dots 0 to 255 of scanlines 0 to 239, rendering or not, the entry of the frame
buffer at scanline * 256 + dot becomes 64 times the emphasis bits plus the low six bits of the dot's colour,
and every other entry stays; at every other dot the whole frame buffer stays. The format of an entry is the
spec's decision D36 (log 5). (R400, R411, R412, R413, R414, R415, R416, R404, R409, R417.) -/
def Obligations.DotsPixelsVblankAndNmi : Prop :=
  ∀ s : State,
    let p := s.ppu
    let u := ppuStep s
    let start := p.scanline = 241 ∧ p.dot = 1
    let clear := p.scanline = 261 ∧ p.dot = 1
    (u.ppu.vblank = if start then true else if clear then false else p.vblank) ∧
    (u.nmiPending = if start then s.nmiPending || p.nmiEnable else s.nmiPending) ∧
    (u.ppu.oddFrame = if start then (if p.rendering then !p.oddFrame else false) else p.oddFrame) ∧
    (clear → u.ppu.spriteZeroHit = false ∧ u.ppu.spriteOverflow = false) ∧
    (240 ≤ p.scanline → ¬ clear →
      u.ppu.spriteZeroHit = p.spriteZeroHit ∧ u.ppu.spriteOverflow = p.spriteOverflow) ∧
    (p.spriteZeroHit = true → ¬ clear → u.ppu.spriteZeroHit = true) ∧
    (p.spriteOverflow = true → ¬ clear → u.ppu.spriteOverflow = true) ∧
    (u.ppu.dot, u.ppu.scanline) =
      (if p.dot = 340 ∨ (p.dot = 339 ∧ p.scanline = 261 ∧ p.oddFrame = true) then
        (0, if p.scanline = 261 then 0 else p.scanline + 1)
       else (p.dot + 1, p.scanline)) ∧
    (p.scanline < 240 ∧ p.dot < 256 → Cells.wf 0#9 p.frameBuffer = true → ∀ k,
      (Cells.read 0#9 u.ppu.frameBuffer k).toNat =
        if k = p.scanline * 256 + p.dot then 64 * p.emphasis.toNat + (dotColour p).toNat % 64
        else (Cells.read 0#9 p.frameBuffer k).toNat) ∧
    (240 ≤ p.scanline ∨ 256 ≤ p.dot → u.ppu.frameBuffer = p.frameBuffer)

/-- From every state whose picture unit is at a legal position, if runFrame answers a next state (no step is
refused), that state is what between 1 and 89342 steps reach, and its picture unit is at scanline 240, dot
0, rendering enabled or not. The bound 89342 on the loop is the model's (log 25). (R362, R363.) -/
def Obligations.RunFrameEndsAtLine240 : Prop :=
  ∀ s t : State, s.ppu.dot ≤ 340 → s.ppu.scanline ≤ 261 → runFrame s = .next t →
    t.ppu.scanline = 240 ∧ t.ppu.dot = 0 ∧
      ∃ n, 1 ≤ n ∧ n ≤ 89342 ∧ Host.Core.run Sys2Proof.core n s = .next t

/-- The write sets the page and starts with 513 DMA cycles to go on an even processor cycle and 514 on an odd
one (the spec's decision D18), or with the length given as the argument DMA_LENGTH (log 13). Cycle 2k+2
reads byte k of the page, cycle 2k+3 writes it through the OAM data port; this for every page. From a
transfer about to start, over a page none of whose reads has a side effect and OAM in canonical form, that
many DMA cycles end it: byte k of the page is at OAM address (oamAddr + k) mod 256, oamAddr is back,
nothing else but the DMA registers changed; before its last cycle it is still in progress. (R350, R351,
R352, R353.) -/
def Obligations.OamDmaCopiesPage : Prop :=
  (∀ (s : State) (x : Byte), busWrite s 0x4014#16 x =
      { s with
        inDma := true, dmaPage := x
        dmaCounter :=
          match s.args.dmaLength with
          | .parity => 1 - s.masterCycle / 3 % 2
          | .always513 => 1
          | .always514 => 0 }) ∧
    (∀ (s : State) (k : Byte),
      (s.dmaCounter < 2 → dmaStep s = { s with dmaCounter := s.dmaCounter + 1 }) ∧
      (s.dmaCounter = 2 * k.toNat + 2 →
        let source : Word := BitVec.ofNat 16 (256 * s.dmaPage.toNat + k.toNat)
        dmaStep s =
          { afterRead s source with dmaValue := busPeek s source, dmaCounter := s.dmaCounter + 1 }) ∧
      (s.dmaCounter = 2 * k.toNat + 3 → dmaStep s =
        { s with
          ppu := { s.ppu with
            oam := Memory.write s.ppu.oam s.ppu.oamAddr.toNat s.dmaValue
            oamAddr := s.ppu.oamAddr + 1#8 }
          inDma := if k = 255#8 then false else s.inDma
          dmaCounter := if k = 255#8 then 0 else s.dmaCounter + 1 })) ∧
    ∀ s : State, s.inDma = true → s.dmaCounter ≤ 1 → Memory.wf s.ppu.oam = true →
      (∀ k : Byte, ¬ ReadEffectAddress (BitVec.ofNat 16 (256 * s.dmaPage.toNat + k.toNat))) →
      ∃ oam value,
        dmaStep^[514 - s.dmaCounter] s =
          { s with inDma := false, dmaCounter := 0, dmaValue := value, ppu := { s.ppu with oam := oam } } ∧
        (∀ k : Byte, Memory.read oam (s.ppu.oamAddr + k).toNat =
          busPeek s (BitVec.ofNat 16 (256 * s.dmaPage.toNat + k.toNat))) ∧
        ∀ n, n < 514 - s.dmaCounter → (dmaStep^[n] s).inDma = true

/-- The k-th read of 0x4016 or 0x4017 returns bit 6 set and, in bit 0, latched button k for k below 8 and 1
from then on, each read shifting the port once; at the start of a processor cycle both shift registers
take the held buttons while the strobe is 1 and stay while it is 0; a write to 0x4016 sets the strobe from
bit 0 alone. (R345, R346, R347, R348.) -/
def Obligations.ControllersShiftOutEightButtons : Prop :=
  (∀ (s : State) (k : Nat),
      (busPeek ((fun u => afterRead u 0x4016#16)^[k] s) 0x4016#16).toNat =
        64 + (if k < 8 then s.port1.latched.toNat / 2 ^ k % 2 else 1) ∧
      (busPeek ((fun u => afterRead u 0x4017#16)^[k] s) 0x4017#16).toNat =
        64 + (if k < 8 then s.port2.latched.toNat / 2 ^ k % 2 else 1)) ∧
    ∀ (s : State) (x : Byte),
      (beginProcessorCycle s).port1.latched = (if s.strobe then s.port1.current else s.port1.latched) ∧
      (beginProcessorCycle s).port2.latched = (if s.strobe then s.port2.current else s.port2.latched) ∧
      busWrite s 0x4016#16 x = { s with strobe := decide (x.toNat % 2 = 1) }

/-- 0x4015 reads which length counters and the DMC are running in bits 0 to 4, the frame and DMC interrupts in
bits 6 and 7; a write to it sets the enables, clears the length counters of disabled channels, starts the
DMC at its sample address and length where it had ended, or stops it, and clears its interrupt; a write to
0x4017 sets mode and inhibit, resets the counter, clears the frame interrupt when inhibiting, and in
5-step mode clocks the length counters at once. A write to 0x4000 to 0x4013 changes its channel as the
register tables say and nothing else: duty, envelope, sweep, period, length load where the channel is
enabled, linear counter, noise mode and period, DMC rate, level, sample address and length; 0x4010 without
the interrupt enable clears the DMC interrupt. That a write to 0x4003, 0x4007, 0x400B or 0x400F restarts
the envelope or the linear counter whatever the enable bit is, is the model's reading of those cells (log
31). (R500, R501, R461, R470, R472, R480, R485, R486, R490, R491, R465.) -/
def Obligations.AudioStatusAndEnable : Prop :=
  ∀ (s : State) (x : Byte),
    let u := s.apu
    let e := (busWrite s 0x4015#16 x).apu
    let f := (busWrite s 0x4017#16 x).apu
    let keep (k n : Nat) : Nat := if x.toNat / 2 ^ k % 2 = 1 then n else 0
    (busPeek s 0x4015#16).toNat =
      (if u.p1.length = 0 then 0 else 1) + (if u.p2.length = 0 then 0 else 2) +
        (if u.tri.length = 0 then 0 else 4) + (if u.noise.length = 0 then 0 else 8) +
        (if u.dmc.bytesLeft = 0 then 0 else 16) + 64 * carryNat u.frameIrq + 128 * carryNat u.dmcIrq ∧
    e.p1.length = keep 0 u.p1.length ∧ e.p2.length = keep 1 u.p2.length ∧
    e.tri.length = keep 2 u.tri.length ∧ e.noise.length = keep 3 u.noise.length ∧
    (e.p1.enable, e.p2.enable, e.tri.enable, e.noise.enable) =
      (x.getLsbD 0, x.getLsbD 1, x.getLsbD 2, x.getLsbD 3) ∧
    e.dmc = { u.dmc with
      bytesLeft := keep 4 (if u.dmc.bytesLeft = 0 then u.dmc.sampleLength else u.dmc.bytesLeft)
      address := if 16 ≤ x.toNat % 32 ∧ u.dmc.bytesLeft = 0 then u.dmc.sampleAddress else u.dmc.address } ∧
    e.dmcIrq = false ∧ e.frameIrq = u.frameIrq ∧
    f.frameCounter = 0 ∧ f.step5Mode = x.getLsbD 7 ∧ f.irqInhibit = x.getLsbD 6 ∧
    f.frameIrq = (u.frameIrq && !x.getLsbD 6) ∧ f.dmcIrq = u.dmcIrq ∧
    f.p1.length = (if x.getLsbD 7 && !u.p1.env.halt then u.p1.length - 1 else u.p1.length) ∧
    f.p2.length = (if x.getLsbD 7 && !u.p2.env.halt then u.p2.length - 1 else u.p2.length) ∧
    f.tri.length = (if x.getLsbD 7 && !u.tri.halt then u.tri.length - 1 else u.tri.length) ∧
    f.noise.length = (if x.getLsbD 7 && !u.noise.env.halt then u.noise.length - 1 else u.noise.length) ∧
    ∀ r, r < 4 →
      busWrite s (BitVec.ofNat 16 (0x4000 + r)) x = { s with apu := { u with p1 := pulseLaw true r x u.p1 } } ∧
      busWrite s (BitVec.ofNat 16 (0x4004 + r)) x = { s with apu := { u with p2 := pulseLaw false r x u.p2 } } ∧
      busWrite s (BitVec.ofNat 16 (0x4008 + r)) x = { s with apu := { u with tri := triangleLaw r x u.tri } } ∧
      busWrite s (BitVec.ofNat 16 (0x400C + r)) x = { s with apu := { u with noise := noiseLaw r x u.noise } } ∧
      busWrite s (BitVec.ofNat 16 (0x4010 + r)) x =
        { s with apu := { u with
            dmc := dmcLaw r x u.dmc
            dmcIrq := if r = 0 ∧ x.toNat < 128 then false else u.dmcIrq } }

/-- From an audio unit whose frame counter is 0, in 4-step mode, not inhibited, with the flag clear, and n
audio steps of the channels with no register access, the frame interrupt flag is set exactly when n is at
least 29829; in 5-step mode or inhibited it is never set. (R455, R460, R604.) -/
def Obligations.FrameInterruptAfterOneSequence : Prop :=
  ∀ (u : Apu) (n : Nat), u.frameCounter = 0 → u.frameIrq = false →
    (u.step5Mode = false → u.irqInhibit = false →
      (Apu.stepChannels^[n] u).frameIrq = decide (29829 ≤ n)) ∧
    (u.step5Mode = true ∨ u.irqInhibit = true → (Apu.stepChannels^[n] u).frameIrq = false)

/-- The sweep target is the period plus or minus its shift, one less for pulse 1 when negated; muted exactly
when the target is above 0x7FF or the period below 8; when not muted with a shift above 0 the target is in
0 to 0x7FF; a pulse or noise channel with length 0 puts out 0; a non-zero noise register stays non-zero;
the DMC level moves by exactly 2 or stays where 2 would leave 0 to 127. (R465, R463, R471, R487, R492,
R506.) -/
def Obligations.ChannelsStayInTheirLaws : Prop :=
  (∀ (first : Bool) (p : Pulse),
      let q := Pulse.updateSweep first p
      let shifted : Int := p.timer.toNat / 2 ^ p.sweepShift.toNat
      q.sweepTarget = p.timer.toNat +
        (if p.sweepNegate then -shifted - (if first then 1 else 0) else shifted) ∧
      (q.sweepMuting = true ↔ 0x7FF < q.sweepTarget ∨ p.timer.toNat < 8) ∧
      (q.sweepMuting = false → q.sweepShift ≠ 0#3 → 0 ≤ q.sweepTarget ∧ q.sweepTarget ≤ 0x7FF) ∧
      (p.length = 0 ∨ p.sweepMuting = true → p.step.output = 0#4)) ∧
    (∀ c : Noise, c.length = 0 → c.step.output = 0#4) ∧
    (∀ (tonal : Bool) (r : BitVec 15), r ≠ 0#15 → noiseShift tonal r ≠ 0#15) ∧
    ∀ (bit : Bool) (level : BitVec 7), (dmcLevel bit level).toNat =
      if bit then (if level.toNat + 2 ≤ 127 then level.toNat + 2 else level.toNat)
      else (if 2 ≤ level.toNat then level.toNat - 2 else level.toNat)

/-- A write from 0x8000 on changes nothing but the mapper's registers: variant A none; C its program bank and
CNROM its character bank, the byte; E its bank from bits 3 to 0 and its page from bit 4; D by the 8 KB window
and the parity of the address: bank select, bank data, mirroring, nothing, IRQ latch, IRQ reload, IRQ disable
with acknowledge, IRQ enable; B takes one serial write. From an empty shift register, five serial writes with
bit 7 clear load the five bits, first bit lowest, into the register the address of the fifth selects, whatever
the other four addresses, and empty the shift register; a write with bit 7 set empties it at any time and
changes nothing else. (R540, R535, R529, R530, R545, R549, R555, R565.) -/
def Obligations.MapperRegisterWrites : Prop :=
  (∀ (s : State) (c : Cartridge) (a : Word) (x : Byte), s.cart = some c → 0x8000 ≤ a.toNat →
      busWrite s a x = { s with cart := some { c with regs := registerLaw a x c.regs } }) ∧
    ∀ (r : RegsB) (a0 a1 a2 a3 a4 : Word) (x0 x1 x2 x3 x4 : Byte),
      (128 ≤ x0.toNat → r.write a0 x0 = { r with shiftReg := 0#5, shiftCount := 0 }) ∧
      (r.shiftReg = 0#5 → r.shiftCount = 0 → x0.toNat < 128 → x1.toNat < 128 → x2.toNat < 128 →
        x3.toNat < 128 → x4.toNat < 128 →
        let n := x0.toNat % 2 + 2 * (x1.toNat % 2) + 4 * (x2.toNat % 2) + 8 * (x3.toNat % 2) +
          16 * (x4.toNat % 2)
        ((((r.write a0 x0).write a1 x1).write a2 x2).write a3 x3).write a4 x4 =
          if a4.toNat < 0xA000 then
            { r with mirroring := BitVec.ofNat 2 n, prgMode := BitVec.ofNat 2 (n / 4),
                     chrMode := decide (n / 16 = 1) }
          else if a4.toNat < 0xC000 then { r with chrBank0 := BitVec.ofNat 5 n }
          else if a4.toNat < 0xE000 then { r with chrBank1 := BitVec.ofNat 5 n }
          else { r with prgBank := BitVec.ofNat 4 n, ramDisable := decide (n / 16 = 1) })

/-- With a reload requested, the interrupt enabled and not raised and the line low: after n rising edges of
address line 12 (each a pattern read with it low, then one with it high), n at most latch + 1, the flag is
set exactly when n is latch + 1; nametable reads and peeks change nothing; with the interrupt disabled no
edge sets it. (R560, R524, R523.) -/
def Obligations.ScanlineCounterOfVariantD : Prop :=
  (∀ (r : RegsD) (lo hi : BitVec 14) (n : Nat), lo.toNat < 0x1000 → 0x1000 ≤ hi.toNat → hi.toNat < 0x2000 →
      r.irqReload = true → r.mapperIrq = false → r.lastA12 = false →
      let edge (q : RegsD) : RegsD := (q.clockA12 lo).clockA12 hi
      (r.irqEnable = true → n ≤ r.irqLatch.toNat + 1 →
        (edge^[n] r).mapperIrq = decide (n = r.irqLatch.toNat + 1)) ∧
      (r.irqEnable = false → (edge^[n] r).mapperIrq = false)) ∧
    ∀ (c : Cartridge) (a : BitVec 14), 0x2000 ≤ a.toNat → (c.picRead a).2 = c

/-- For valid bank counts: after the mapper's reset the addresses from 0xE000 on show, for variants B, C and
D, the last 16 KB bank of the image; for A and CNROM the image repeated through 32 KB; for E the first 32
KB (or all of it); and every program read of every variant is of an image byte inside the program data.
(R600, R530, R536, R545, R549, R556, R565, R570.) -/
def Obligations.VectorsAfterReset : Prop :=
  ∀ (c : Cartridge) (p : PowerOn) (a : Word) (hard : Bool), c.header.countsOk = true → 0x8000 ≤ a.toNat →
    let d := c.reset p hard
    let h := c.header
    (0xE000 ≤ a.toNat → (c.regs.variant = 1 ∨ c.regs.variant = 2 ∨ c.regs.variant = 4) →
      d.cpuRead a = Memory.read c.image (h.prgBase + 0x4000 * (h.prgBanks - 1) + a.toNat % 0x4000)) ∧
    (c.regs.variant = 0 ∨ c.regs.variant = 3 ∨ c.regs.variant = 7 →
      d.cpuRead a = Memory.read c.image (h.prgBase + a.toNat % 0x8000 % (0x4000 * h.prgBanks))) ∧
    ∃ o, o < 0x4000 * h.prgBanks ∧ c.cpuRead a = Memory.read c.image (h.prgBase + o)

/-- An image is accepted exactly when it has 16 bytes, the magic, the length its bank counts declare, one of
the six mapper identifiers, and power-of-two bank counts (the spec's decision D45, log 27); loaded, A, X,
Y are 0, S is 0xFD, I is set and the other flags clear, PC is the reset vector's target, 7 cycles wait, no
interrupt is pending, the ports, the strobe and the DMA registers are 0, the picture and audio units are
at their reset values, the machine's arguments stay (log 12), the mapper is the variant the header names
with its registers at their reset values, and the bytes of the image are readable. The reset values are
the spec's decisions D2, D3, D4, D34, D37 (log 5). Work RAM, OAM, palette RAM and the cartridge's RAMs
hold what the argument POWER_ON_RAM gives, nametable RAM as much of it as it has (log 4); the DMC timer's
reset value 0 is log 21. (R522, R528, R590, R600, R36, R37.) -/
def Obligations.LoadAcceptsExactlyValidImages : Prop :=
  ∀ (rom : List Byte) (s : State),
    ((∃ t, loadCartridge rom s = .ok t) ↔
      16 ≤ rom.length ∧ rom.take 4 = [0x4E#8, 0x45#8, 0x53#8, 0x1A#8] ∧
        (headerOf rom).minLength ≤ rom.length ∧
        (headerOf rom).mapperId.toNat ∈ [0, 1, 2, 3, 4, 7] ∧ (headerOf rom).countsOk = true) ∧
    ∀ t, loadCartridge rom s = .ok t →
      t.a = 0#8 ∧ t.x = 0#8 ∧ t.y = 0#8 ∧ t.sp = 0xFD#8 ∧ statusByte false t = 0x24#8 ∧
      t.cyclesRemaining = 7 ∧ t.masterCycle = 0 ∧ t.pc = pairAt t 0xFFFC#16 0xFFFD#16 ∧
      t.nmiPending = false ∧ t.irqPending = false ∧ t.ram = s.args.powerOn.work ∧
      t.port1 = { current := 0#8, latched := 0#8 } ∧ t.port2 = { current := 0#8, latched := 0#8 } ∧
      t.strobe = false ∧ t.inDma = false ∧ t.dmaPage = 0#8 ∧ t.dmaCounter = 0 ∧ t.dmaValue = 0#8 ∧
      t.ppu = { Ppu.reset with oam := s.args.powerOn.oam, palette := s.args.powerOn.palette } ∧
      t.apu = Apu.reset ∧ t.args = s.args ∧
      ∃ c, t.cart = some c ∧ c.header = headerOf rom ∧ c.size = rom.length ∧
        (∀ k, k < rom.length → Memory.read c.image k = imageByte rom k) ∧
        c.regs.variant = (headerOf rom).mapperId.toNat ∧ c.regs.AtReset ∧
        c.prgRam = s.args.powerOn.program ∧ c.chrRam = s.args.powerOn.character ∧
        c.ntRam = Memory.below c.header.ntSize s.args.powerOn.nametable

/-- hostReset is refused without a cartridge. With one it answers a state with S 0xFD, I set and the other
flags clear, PC from the reset vector, 7 cycles, master cycle 0, no interrupt pending, the ports, the strobe
and the DMA registers 0, and the picture unit, the audio unit and the mapper's registers at their reset
values; a soft reset keeps A, X, Y, work RAM and the cartridge's RAMs, and keeps OAM, palette RAM and the
frame buffer where the machine follows R37, R600 and R603, as by default, and zeroes them where it follows
R381 (log 9); a hard one clears A, X, Y and the frame buffer and sets every RAM to the argument POWER_ON_RAM,
program RAM only without a battery; both keep the image, the header, the variant and the arguments (log 12).
After a hard reset of a machine given any contents, each RAM reads those contents; contents of zeros are the
default argument (how it is carried is the model's choice, log 4). The machine constructed with any contents
of its RAMs, any cost table in range (in canonical form, every cost from 2 to 8, as O9 builds them, log 12),
any DMA length and either reading of a soft reset meets the invariant, and every reset of a machine that meets
it keeps it (logs 13, 17). The reset values are the spec's decisions D2, D3, D4, D34, D37 (log 5). The DMC
timer's reset value 0 is log 21. (R600, R603, R36, R37, R381, R531, R5.) -/
def Obligations.ResetKeepsAndClears : Prop :=
  (∀ (s : State) (hard : Bool),
    (s.cart = none → hostReset hard s = .refused .noCartridge) ∧
    ∀ c, s.cart = some c → ∃ t d, hostReset hard s = .next t ∧ t.cart = some d ∧
      d.regs = c.regs.reset ∧ d.regs.variant = c.regs.variant ∧ d.regs.AtReset ∧
      d.image = c.image ∧ d.size = c.size ∧ d.header = c.header ∧
      t.sp = 0xFD#8 ∧ statusByte false t = 0x24#8 ∧ t.cyclesRemaining = 7 ∧ t.masterCycle = 0 ∧
      t.pc = pairAt t 0xFFFC#16 0xFFFD#16 ∧ t.inDma = false ∧ t.nmiPending = false ∧ t.irqPending = false ∧
      t.port1 = { current := 0#8, latched := 0#8 } ∧ t.port2 = { current := 0#8, latched := 0#8 } ∧
      t.strobe = false ∧ t.dmaPage = 0#8 ∧ t.dmaCounter = 0 ∧ t.dmaValue = 0#8 ∧
      t.apu = Apu.reset ∧ t.ppu.v = 0#15 ∧ t.ppu.dot = 0 ∧ t.ppu.scanline = 0 ∧ t.ppu.nmiEnable = false ∧
      t.args = s.args ∧
      (hard = false → t.a = s.a ∧ t.x = s.x ∧ t.y = s.y ∧ t.ram = s.ram ∧
        (s.args.softReset = .keepsPicture → t.ppu = { Ppu.reset with
          oam := s.ppu.oam, palette := s.ppu.palette, frameBuffer := s.ppu.frameBuffer }) ∧
        (s.args.softReset = .clearsPicture → t.ppu = Ppu.reset) ∧
        d.prgRam = c.prgRam ∧ d.chrRam = c.chrRam ∧ d.ntRam = c.ntRam) ∧
      (hard = true → t.a = 0#8 ∧ t.x = 0#8 ∧ t.y = 0#8 ∧ t.ram = s.args.powerOn.work ∧
        t.ppu = { Ppu.reset with oam := s.args.powerOn.oam, palette := s.args.powerOn.palette } ∧
        d.chrRam = s.args.powerOn.character ∧
        d.ntRam = Memory.below c.header.ntSize s.args.powerOn.nametable ∧
        (c.header.battery = true → d.prgRam = c.prgRam) ∧
        (c.header.battery = false → d.prgRam = s.args.powerOn.program))) ∧
    (∀ (contents : Ram → Nat → Byte) (s t : State) (d : Cartridge) (k : Nat),
      hostReset true (s.withPowerOn contents) = .next t → t.cart = some d →
      (k < 0x800 → Memory.read t.ram k = contents .work k) ∧
      (k < 0x100 → Memory.read t.ppu.oam k = contents .oam k) ∧
      (k < 0x20 → Memory.read t.ppu.palette k = contents .palette k) ∧
      (k < d.header.ntSize → Memory.read d.ntRam k = contents .nametable k) ∧
      (k < 0x2000 → Memory.read d.chrRam k = contents .character k) ∧
      (k < 0x2000 → d.header.battery = false → Memory.read d.prgRam k = contents .program k)) ∧
    (∀ s : State, (s.withPowerOn fun _ _ => 0x00#8).args.powerOn = State.reset.args.powerOn) ∧
    (∀ (contents : Ram → Nat → Byte) (k : CycleTable) (l : DmaLength) (r : SoftReset), k.Ok →
      (State.constructed { cycleTable := k, powerOn := powerOnOf contents, dmaLength := l, softReset := r }).Inv) ∧
    ∀ (s t : State) (hard : Bool), s.Inv → hostReset hard s = .next t → t.Inv

/-- State.reset has every memory in canonical form (log 17) and inside its size, every counter in its range
and the default arguments (log 12). It rests on values the model names: RAM of zeros, the default of
POWER_ON_RAM (log 4), the machine before a cartridge is loaded, PC 0x0000 (log 2), the DMC timer at 0 (log
21). (R36, R37, R381, R451.) -/
def Obligations.ResetMeetsInvariant : Prop :=
  State.reset.Inv

/-- From every state that meets the invariant, a next state meets it: work RAM, OAM, palette, sprite buffers,
frame buffer and the cartridge's RAMs in canonical form (the model's choice, log 17) and inside their
sizes; dot, scanline, sprite count, cycle, DMA, timer, length, sweep, noise, DMC and sample counters in
the ranges the rules give, but that the DMC timer has no lower bound 53, since it is 0 until first written
(log 21); the cost table in canonical form with every cost from 2 to 8 (log 12); the contents of
POWER_ON_RAM in canonical form and inside their sizes (log 4). (R417, R450, R570, R30, R301.) -/
def Obligations.StepKeepsInvariant : Prop :=
  ∀ s t : State, s.Inv → step s = .next t → t.Inv
end

