-- ==== Sys2Proof/Laws/Arith.lean ====
section
/-! SUPPORT. The flag computations of Machine/Flags.lean and the laws on numbers of Safety.lean agree. -/

namespace Sys2Proof.Machine

/-- Bit 7 of a byte is its value being 128 or more. -/
theorem byte_bit7 (x : Byte) : x.getLsbD 7 = decide (128 ≤ x.toNat) := by revert x; decide

/-- A byte is 0 when its value is. -/
theorem byte_eq_zero (x : Byte) : (x == 0#8) = decide (x.toNat = 0) := by revert x; decide

theorem setZN_eq (r : Byte) (s : State) : setZN r s = zeroNegative r s := by
  simp only [setZN, zeroNegative, byte_bit7, byte_eq_zero]

/-- The carry as a number is 0 or 1. -/
theorem carryNat_le (c : Bool) : carryNat c ≤ 1 := by cases c <;> decide

/-- The sign-divergence test is signed overflow, for every pair of bytes and both carries. -/
theorem signDiverges_iff (a m : Byte) (c : Bool) :
    signDiverges a m (BitVec.ofNat 8 (adcSum a m c)) =
      decide (a.toInt + m.toInt + carryNat c < -128 ∨ 127 < a.toInt + m.toInt + carryNat c) := by
  have ha := a.isLt
  have hm := m.isLt
  have hc := carryNat_le c
  simp only [signDiverges, BitVec.getLsbD_and, BitVec.getLsbD_xor]
  simp only [byte_bit7, adcSum, BitVec.toNat_ofNat, BitVec.toInt_eq_toNat_cond]
  rw [Bool.eq_iff_iff]
  by_cases h1 : 128 ≤ a.toNat <;> by_cases h2 : 128 ≤ m.toNat <;>
    by_cases h3 : 128 ≤ (a.toNat + m.toNat + carryNat c) % 2 ^ 8 <;> simp [h1, h2] <;>
    split_ifs <;> omega

theorem adcInto_eq (m : Byte) (s : State) : adcInto m s = addLaw m s := by
  simp only [adcInto, addLaw, setZN, signDiverges_iff, byte_eq_zero, byte_bit7]
  simp only [adcSum, BitVec.toNat_ofNat]
  congr 1
  exact BitVec.eq_of_toNat_eq (by simp)

/-- The ones' complement of a byte as numbers. -/
theorem complement_toNat (m : Byte) : (m ^^^ 0xFF#8).toNat = 255 - m.toNat := by revert m; decide

theorem complement_toInt (m : Byte) : (m ^^^ 0xFF#8).toInt = -m.toInt - 1 := by revert m; decide

theorem sbcInto_eq (m : Byte) (s : State) : sbcInto m s = subtractLaw m s := by
  have ha := s.a.isLt
  have hm := m.isLt
  have hc := carryNat_le s.flagC
  simp only [sbcInto, adcInto_eq, addLaw, subtractLaw, complement_toNat, complement_toInt]
  have e1 : (BitVec.ofNat 8 ((s.a.toNat + (255 - m.toNat) + carryNat s.flagC) % 256) : Byte) =
      BitVec.ofInt 8 ((s.a.toNat : Int) - m.toNat - (1 - carryNat s.flagC)) := by
    apply BitVec.eq_of_toNat_eq
    simp only [BitVec.toNat_ofNat, BitVec.toNat_ofInt]
    omega
  rw [e1]
  congr 1 <;> rw [decide_eq_decide] <;> omega

theorem compareWith_eq (r m : Byte) (s : State) : compareWith r m s = compareLaw r m s := by
  have e1 : (r == m) = decide (r.toNat = m.toNat) := by
    rw [Bool.eq_iff_iff]; simp [BitVec.toNat_inj]
  have e2 : (r - m).getLsbD 7 = decide (128 ≤ (r.toNat + 256 - m.toNat) % 256) := by
    have hr := r.isLt
    have hm := m.isLt
    rw [byte_bit7, decide_eq_decide, BitVec.toNat_sub]
    omega
  simp only [compareWith, compareLaw, e1, e2]

/-! The shifts. -/

theorem aslByte_eq (v : Byte) (c : Bool) : aslByte v c = { result := aslResult v c, carry := highBit v c } := by
  revert v c; decide

theorem lsrByte_eq (v : Byte) (c : Bool) : lsrByte v c = { result := lsrResult v c, carry := lowBit v c } := by
  revert v c; decide

theorem rolByte_eq (v : Byte) (c : Bool) : rolByte v c = { result := rolResult v c, carry := highBit v c } := by
  revert v c; decide

theorem rorByte_eq (v : Byte) (c : Bool) : rorByte v c = { result := rorResult v c, carry := lowBit v c } := by
  revert v c; decide

theorem incByte_eq (v : Byte) (c : Bool) : incByte v c = { result := incResult v c, carry := sameCarry v c } := by
  revert v c; decide

theorem decByte_eq (v : Byte) (c : Bool) : decByte v c = { result := decResult v c, carry := sameCarry v c } := by
  revert v c; decide

/-! The status byte. -/

theorem packP_eq (b : Bool) (s : State) : packP b s = statusByte b s := by
  unfold packP statusByte
  generalize s.flagN = n; generalize s.flagV = v; generalize s.flagD = d
  generalize s.flagI = i; generalize s.flagZ = z; generalize s.flagC = c
  revert b n v d i z c; decide

theorem unpackP_eq (p : Byte) (s : State) : unpackP p s = loadStatus p s := by
  unfold unpackP loadStatus
  have h : ∀ p : Byte, p.getLsbD 7 = decide (p.toNat / 128 % 2 = 1) ∧ p.getLsbD 6 = decide (p.toNat / 64 % 2 = 1) ∧
      p.getLsbD 3 = decide (p.toNat / 8 % 2 = 1) ∧ p.getLsbD 2 = decide (p.toNat / 4 % 2 = 1) ∧
      p.getLsbD 1 = decide (p.toNat / 2 % 2 = 1) ∧ p.getLsbD 0 = decide (p.toNat % 2 = 1) := by decide
  obtain ⟨h7, h6, h3, h2, h1, h0⟩ := h p
  rw [h7, h6, h3, h2, h1, h0]

/-- What a pulled status byte restores is what was pushed. -/
theorem unpackP_packP (b : Bool) (s t : State) :
    unpackP (packP b s) t =
      { t with flagN := s.flagN, flagV := s.flagV, flagD := s.flagD, flagI := s.flagI, flagZ := s.flagZ,
               flagC := s.flagC } := by
  have h : ∀ b n v d i z c : Bool,
      let p : Byte := (if n then 0x80#8 else 0#8) ||| (if v then 0x40#8 else 0#8) ||| 0x20#8 |||
        (if b then 0x10#8 else 0#8) ||| (if d then 0x08#8 else 0#8) ||| (if i then 0x04#8 else 0#8) |||
        (if z then 0x02#8 else 0#8) ||| (if c then 0x01#8 else 0#8)
      p.getLsbD 7 = n ∧ p.getLsbD 6 = v ∧ p.getLsbD 3 = d ∧ p.getLsbD 2 = i ∧ p.getLsbD 1 = z ∧
        p.getLsbD 0 = c := by decide
  obtain ⟨h7, h6, h3, h2, h1, h0⟩ := h b s.flagN s.flagV s.flagD s.flagI s.flagZ s.flagC
  simp only [unpackP, packP, h7, h6, h3, h2, h1, h0]

/-! Bytes of a word. -/

@[simp] theorem wordOf_toNat (lo hi : Byte) : (wordOf lo hi).toNat = lo.toNat + 256 * hi.toNat := by
  have := lo.isLt
  simp only [wordOf, BitVec.toNat_append]
  rw [Nat.shiftLeft_eq, ← Nat.shiftLeft_eq, ← Nat.shiftLeft_add_eq_or_of_lt this, Nat.shiftLeft_eq]
  omega

@[simp] theorem loByte_toNat (w : Word) : (loByte w).toNat = w.toNat % 256 := by
  simp [loByte, BitVec.extractLsb'_toNat]

@[simp] theorem hiByte_toNat (w : Word) : (hiByte w).toNat = w.toNat / 256 := by
  have := w.isLt
  simp [hiByte, BitVec.extractLsb'_toNat, Nat.shiftRight_eq_div_pow]
  omega

theorem wordOf_bytes (w : Word) : wordOf (loByte w) (hiByte w) = w := by
  apply BitVec.eq_of_toNat_eq
  simp only [wordOf_toNat, loByte_toNat, hiByte_toNat]
  omega

@[simp] theorem loByte_wordOf (lo hi : Byte) : loByte (wordOf lo hi) = lo := by
  apply BitVec.eq_of_toNat_eq
  have := lo.isLt
  simp only [loByte_toNat, wordOf_toNat]; omega

@[simp] theorem hiByte_wordOf (lo hi : Byte) : hiByte (wordOf lo hi) = hi := by
  apply BitVec.eq_of_toNat_eq
  have := lo.isLt
  have := hi.isLt
  simp only [hiByte_toNat, wordOf_toNat]; omega

end Sys2Proof.Machine
end

