-- ==== Sys2Proof/Laws/Memory.lean ====
section
/-! SUPPORT. Memories: reading what was written, and the canonical form. -/

namespace Sys2Proof.Machine

variable {α : Type}

/-- An index below every listed one reads the default. -/
theorem Cells.read_below [DecidableEq α] {d : α} {m : List (Nat × α)} {b k : Nat}
    (h : Cells.wfAbove d (some b) m = true) (hk : k ≤ b) : Cells.read d m k = d := by
  cases m with
  | nil => rfl
  | cons c m =>
    obtain ⟨j, u⟩ := c
    simp only [Cells.wfAbove, Bool.and_eq_true, decide_eq_true_eq] at h
    obtain ⟨⟨hb, -⟩, -⟩ := h
    have h1 : k ≠ j := by omega
    have h2 : k < j := by omega
    simp [Cells.read, h1, h2]

/-- A canonical list stays canonical when the lower bound is dropped. -/
theorem Cells.wf_of_above [DecidableEq α] {d : α} {m : List (Nat × α)} {b : Option Nat}
    (h : Cells.wfAbove d b m = true) : Cells.wf d m = true := by
  unfold Cells.wf
  cases m with
  | nil => rfl
  | cons c m =>
    obtain ⟨j, u⟩ := c
    cases b with
    | none => exact h
    | some b =>
      simp only [Cells.wfAbove, Bool.and_eq_true] at h ⊢
      exact ⟨h.1.2, h.2⟩

/-- A write above the bound keeps the canonical form above it. -/
theorem Cells.write_wfAbove [DecidableEq α] {d : α} {m : List (Nat × α)} {b : Option Nat} {k : Nat} (x : α)
    (h : Cells.wfAbove d b m = true) (hk : ∀ j, b = some j → j < k) :
    Cells.wfAbove d b (Cells.write d m k x) = true := by
  induction m generalizing b with
  | nil =>
    by_cases hx : x = d
    · simp [Cells.write, hx, Cells.wfAbove]
    · cases b with
      | none => simp [Cells.write, hx, Cells.wfAbove]
      | some b => simp [Cells.write, hx, Cells.wfAbove, hk b rfl]
  | cons c m ih =>
    obtain ⟨j, u⟩ := c
    have hu : u ≠ d ∧ Cells.wfAbove d (some j) m = true := by
      cases b with
      | none => simpa [Cells.wfAbove] using h
      | some b =>
        simp only [Cells.wfAbove, Bool.and_eq_true, decide_eq_true_eq] at h
        exact ⟨h.1.2, h.2⟩
    have hj : ∀ i, b = some i → i < j := by
      intro i hi; subst hi
      simp only [Cells.wfAbove, Bool.and_eq_true, decide_eq_true_eq] at h
      exact h.1.1
    by_cases h1 : k < j
    · by_cases hx : x = d
      · simpa [Cells.write, h1, hx] using h
      · cases b with
        | none => simp [Cells.write, h1, hx, Cells.wfAbove, hu.1, hu.2]
        | some b => simp [Cells.write, h1, hx, Cells.wfAbove, hu.1, hu.2, hk b rfl]
    · by_cases h2 : k = j
      · subst h2
        by_cases hx : x = d
        · simp only [Cells.write, lt_irrefl, if_false, if_true, hx]
          cases b with
          | none => exact Cells.wf_of_above hu.2
          | some b =>
            cases m with
            | nil => rfl
            | cons c m =>
              obtain ⟨i, v⟩ := c
              have hw := hu.2
              have hb := hj b rfl
              simp only [Cells.wfAbove, Bool.and_eq_true, decide_eq_true_eq] at hw ⊢
              exact ⟨⟨by omega, hw.1.2⟩, hw.2⟩
        · cases b with
          | none => simp [Cells.write, hx, Cells.wfAbove, hu.2]
          | some b => simp [Cells.write, hx, Cells.wfAbove, hu.2, hj b rfl]
      · have hstep : Cells.write d ((j, u) :: m) k x = (j, u) :: Cells.write d m k x := by
          simp [Cells.write, h1, h2]
        have hrec := ih hu.2 (by intro i hi; cases hi; omega)
        rw [hstep]
        cases b with
        | none => simp [Cells.wfAbove, hu.1, hrec]
        | some b => simp [Cells.wfAbove, hu.1, hrec, hj b rfl]

/-- A write keeps the canonical form. -/
theorem Cells.write_wf [DecidableEq α] {d : α} {m : List (Nat × α)} (k : Nat) (x : α)
    (h : Cells.wf d m = true) : Cells.wf d (Cells.write d m k x) = true :=
  Cells.write_wfAbove x h (by intro j hj; cases hj)

/-- Reading after a write, above a bound. -/
theorem Cells.read_write_above [DecidableEq α] {d : α} {m : List (Nat × α)} {b : Option Nat} (k i : Nat) (x : α)
    (h : Cells.wfAbove d b m = true) :
    Cells.read d (Cells.write d m k x) i = if i = k then x else Cells.read d m i := by
  induction m generalizing b with
  | nil =>
    by_cases hx : x = d <;> by_cases hi : i = k <;> simp [Cells.write, Cells.read, hx, hi]
  | cons c m ih =>
    obtain ⟨j, u⟩ := c
    have hu : Cells.wfAbove d (some j) m = true := by
      cases b with
      | none =>
        simp only [Cells.wfAbove, Bool.and_eq_true] at h
        exact h.2
      | some b =>
        simp only [Cells.wfAbove, Bool.and_eq_true] at h
        exact h.2
    by_cases h1 : k < j
    · by_cases hx : x = d
      · by_cases hi : i = k
        · have e1 : i ≠ j := by omega
          have e2 : i < j := by omega
          simp [Cells.write, h1, hx, hi, Cells.read]
          intro e; omega
        · simp [Cells.write, h1, hx, hi]
      · by_cases hi : i = k
        · simp [Cells.write, h1, hx, hi, Cells.read]
        · by_cases hlt : i < k
          · have e1 : i ≠ j := by omega
            have e2 : i < j := by omega
            simp [Cells.write, h1, hx, hi, Cells.read, hlt, e1, e2]
          · simp [Cells.write, h1, hx, hi, Cells.read, hlt]
    · by_cases h2 : k = j
      · subst h2
        by_cases hx : x = d
        · by_cases hi : i = k
          · simp only [Cells.write, lt_irrefl, if_false, if_true, hx, hi]
            exact Cells.read_below hu (le_refl k)
          · by_cases hlt : i < k
            · simp only [Cells.write, lt_irrefl, if_false, if_true, hx, hi, Cells.read, hlt]
              exact Cells.read_below hu (by omega)
            · simp [Cells.write, hx, hi, Cells.read, hlt]
        · by_cases hi : i = k
          · simp [Cells.write, hx, hi, Cells.read]
          · by_cases hlt : i < k <;> simp [Cells.write, hx, hi, Cells.read, hlt]
      · have hstep : Cells.write d ((j, u) :: m) k x = (j, u) :: Cells.write d m k x := by
          simp [Cells.write, h1, h2]
        rw [hstep]
        by_cases hi : i = j
        · have : j ≠ k := fun e => h2 e.symm
          simp [Cells.read, hi, this]
        · by_cases hlt : i < j
          · have : i ≠ k := by omega
            simp [Cells.read, hi, hlt, this]
          · simp [Cells.read, hi, hlt, ih hu]

/-- Reading after a write: the value written, or what was there. -/
theorem Cells.read_write [DecidableEq α] {d : α} {m : List (Nat × α)} (k i : Nat) (x : α)
    (h : Cells.wf d m = true) :
    Cells.read d (Cells.write d m k x) i = if i = k then x else Cells.read d m i :=
  Cells.read_write_above k i x h

/-- Every index a write leaves in the list was there or is the one written. -/
theorem Cells.write_indices [DecidableEq α] {d : α} {m : List (Nat × α)} (k : Nat) (x : α) {c : Nat × α}
    (h : c ∈ Cells.write d m k x) : c ∈ m ∨ c.1 = k := by
  induction m with
  | nil =>
    by_cases hx : x = d
    · simp [Cells.write, hx] at h
    · simp [Cells.write, hx] at h
      exact .inr (by rw [h])
  | cons e m ih =>
    obtain ⟨j, u⟩ := e
    simp only [Cells.write] at h
    split at h
    · split at h
      · exact .inl h
      · rcases List.mem_cons.mp h with h | h
        · exact .inr (by rw [h])
        · exact .inl h
    · split at h
      · split at h
        · exact .inl (List.mem_cons_of_mem _ h)
        · rcases List.mem_cons.mp h with h | h
          · exact .inr (by rw [h])
          · exact .inl (List.mem_cons_of_mem _ h)
      · rcases List.mem_cons.mp h with h | h
        · exact .inl (by rw [h]; exact List.mem_cons_self ..)
        · rcases ih h with h | h
          · exact .inl (List.mem_cons_of_mem _ h)
          · exact .inr h

/-- A memory write keeps the canonical form. -/
theorem Memory.write_wf {m : Memory} (k : Nat) (x : Byte) (h : m.wf = true) : (m.write k x).wf = true :=
  Cells.write_wf k x h

/-- A memory read after a write. -/
theorem Memory.read_write {m : Memory} (k i : Nat) (x : Byte) (h : m.wf = true) :
    (m.write k x).read i = if i = k then x else m.read i :=
  Cells.read_write k i x h

/-- A memory of bytes is canonical above any index below its first. -/
theorem Memory.ofBytes_wfAbove (bs : List Byte) (k : Nat) (b : Option Nat) (hb : ∀ j, b = some j → j < k) :
    Cells.wfAbove Config.unlistedByte b (Memory.ofBytes k bs) = true := by
  induction bs generalizing k b with
  | nil => cases b <;> rfl
  | cons x bs ih =>
    by_cases hx : x = Config.unlistedByte
    · simp only [Memory.ofBytes, hx, if_true]
      exact ih (k + 1) b (fun j hj => Nat.lt_succ_of_lt (hb j hj))
    · simp only [Memory.ofBytes, hx, if_false]
      have hr := ih (k + 1) (some k) (by intro j hj; cases hj; omega)
      cases b with
      | none => simp [Cells.wfAbove, hx, hr]
      | some b => simp [Cells.wfAbove, hx, hr, hb b rfl]

/-- A memory of bytes is canonical. -/
theorem Memory.ofBytes_wf (k : Nat) (bs : List Byte) : (Memory.ofBytes k bs).wf = true :=
  Memory.ofBytes_wfAbove bs k none (by intro j hj; cases hj)

end Sys2Proof.Machine
end

