-- ==== Sys2Proof/Laws/State.lean ====
section
/-! SUPPORT. One lemma per field of State for each named update of it. -/

namespace Sys2Proof.Machine

@[simp] theorem setZN_a (r : Byte) (s : State) : (setZN r s).a = s.a := rfl
@[simp] theorem setZN_x (r : Byte) (s : State) : (setZN r s).x = s.x := rfl
@[simp] theorem setZN_y (r : Byte) (s : State) : (setZN r s).y = s.y := rfl
@[simp] theorem setZN_sp (r : Byte) (s : State) : (setZN r s).sp = s.sp := rfl
@[simp] theorem setZN_pc (r : Byte) (s : State) : (setZN r s).pc = s.pc := rfl
@[simp] theorem setZN_flagC (r : Byte) (s : State) : (setZN r s).flagC = s.flagC := rfl
@[simp] theorem setZN_flagZ (r : Byte) (s : State) : (setZN r s).flagZ = (r == 0#8) := rfl
@[simp] theorem setZN_flagI (r : Byte) (s : State) : (setZN r s).flagI = s.flagI := rfl
@[simp] theorem setZN_flagD (r : Byte) (s : State) : (setZN r s).flagD = s.flagD := rfl
@[simp] theorem setZN_flagV (r : Byte) (s : State) : (setZN r s).flagV = s.flagV := rfl
@[simp] theorem setZN_flagN (r : Byte) (s : State) : (setZN r s).flagN = r.getLsbD 7 := rfl
@[simp] theorem setZN_nmiPending (r : Byte) (s : State) : (setZN r s).nmiPending = s.nmiPending := rfl
@[simp] theorem setZN_irqPending (r : Byte) (s : State) : (setZN r s).irqPending = s.irqPending := rfl
@[simp] theorem setZN_cyclesRemaining (r : Byte) (s : State) : (setZN r s).cyclesRemaining = s.cyclesRemaining := rfl
@[simp] theorem setZN_ram (r : Byte) (s : State) : (setZN r s).ram = s.ram := rfl
@[simp] theorem setZN_port1 (r : Byte) (s : State) : (setZN r s).port1 = s.port1 := rfl
@[simp] theorem setZN_port2 (r : Byte) (s : State) : (setZN r s).port2 = s.port2 := rfl
@[simp] theorem setZN_strobe (r : Byte) (s : State) : (setZN r s).strobe = s.strobe := rfl
@[simp] theorem setZN_inDma (r : Byte) (s : State) : (setZN r s).inDma = s.inDma := rfl
@[simp] theorem setZN_dmaPage (r : Byte) (s : State) : (setZN r s).dmaPage = s.dmaPage := rfl
@[simp] theorem setZN_dmaCounter (r : Byte) (s : State) : (setZN r s).dmaCounter = s.dmaCounter := rfl
@[simp] theorem setZN_dmaValue (r : Byte) (s : State) : (setZN r s).dmaValue = s.dmaValue := rfl
@[simp] theorem setZN_masterCycle (r : Byte) (s : State) : (setZN r s).masterCycle = s.masterCycle := rfl
@[simp] theorem setZN_ppu (r : Byte) (s : State) : (setZN r s).ppu = s.ppu := rfl
@[simp] theorem setZN_apu (r : Byte) (s : State) : (setZN r s).apu = s.apu := rfl
@[simp] theorem setZN_cart (r : Byte) (s : State) : (setZN r s).cart = s.cart := rfl
@[simp] theorem setZN_args (r : Byte) (s : State) : (setZN r s).args = s.args := rfl

@[simp] theorem unpackP_a (p : Byte) (s : State) : (unpackP p s).a = s.a := rfl
@[simp] theorem unpackP_x (p : Byte) (s : State) : (unpackP p s).x = s.x := rfl
@[simp] theorem unpackP_y (p : Byte) (s : State) : (unpackP p s).y = s.y := rfl
@[simp] theorem unpackP_sp (p : Byte) (s : State) : (unpackP p s).sp = s.sp := rfl
@[simp] theorem unpackP_pc (p : Byte) (s : State) : (unpackP p s).pc = s.pc := rfl
@[simp] theorem unpackP_flagC (p : Byte) (s : State) : (unpackP p s).flagC = p.getLsbD 0 := rfl
@[simp] theorem unpackP_flagZ (p : Byte) (s : State) : (unpackP p s).flagZ = p.getLsbD 1 := rfl
@[simp] theorem unpackP_flagI (p : Byte) (s : State) : (unpackP p s).flagI = p.getLsbD 2 := rfl
@[simp] theorem unpackP_flagD (p : Byte) (s : State) : (unpackP p s).flagD = p.getLsbD 3 := rfl
@[simp] theorem unpackP_flagV (p : Byte) (s : State) : (unpackP p s).flagV = p.getLsbD 6 := rfl
@[simp] theorem unpackP_flagN (p : Byte) (s : State) : (unpackP p s).flagN = p.getLsbD 7 := rfl
@[simp] theorem unpackP_nmiPending (p : Byte) (s : State) : (unpackP p s).nmiPending = s.nmiPending := rfl
@[simp] theorem unpackP_irqPending (p : Byte) (s : State) : (unpackP p s).irqPending = s.irqPending := rfl
@[simp] theorem unpackP_cyclesRemaining (p : Byte) (s : State) : (unpackP p s).cyclesRemaining = s.cyclesRemaining := rfl
@[simp] theorem unpackP_ram (p : Byte) (s : State) : (unpackP p s).ram = s.ram := rfl
@[simp] theorem unpackP_port1 (p : Byte) (s : State) : (unpackP p s).port1 = s.port1 := rfl
@[simp] theorem unpackP_port2 (p : Byte) (s : State) : (unpackP p s).port2 = s.port2 := rfl
@[simp] theorem unpackP_strobe (p : Byte) (s : State) : (unpackP p s).strobe = s.strobe := rfl
@[simp] theorem unpackP_inDma (p : Byte) (s : State) : (unpackP p s).inDma = s.inDma := rfl
@[simp] theorem unpackP_dmaPage (p : Byte) (s : State) : (unpackP p s).dmaPage = s.dmaPage := rfl
@[simp] theorem unpackP_dmaCounter (p : Byte) (s : State) : (unpackP p s).dmaCounter = s.dmaCounter := rfl
@[simp] theorem unpackP_dmaValue (p : Byte) (s : State) : (unpackP p s).dmaValue = s.dmaValue := rfl
@[simp] theorem unpackP_masterCycle (p : Byte) (s : State) : (unpackP p s).masterCycle = s.masterCycle := rfl
@[simp] theorem unpackP_ppu (p : Byte) (s : State) : (unpackP p s).ppu = s.ppu := rfl
@[simp] theorem unpackP_apu (p : Byte) (s : State) : (unpackP p s).apu = s.apu := rfl
@[simp] theorem unpackP_cart (p : Byte) (s : State) : (unpackP p s).cart = s.cart := rfl
@[simp] theorem unpackP_args (p : Byte) (s : State) : (unpackP p s).args = s.args := rfl

@[simp] theorem compareWith_a (r m : Byte) (s : State) : (compareWith r m s).a = s.a := rfl
@[simp] theorem compareWith_x (r m : Byte) (s : State) : (compareWith r m s).x = s.x := rfl
@[simp] theorem compareWith_y (r m : Byte) (s : State) : (compareWith r m s).y = s.y := rfl
@[simp] theorem compareWith_sp (r m : Byte) (s : State) : (compareWith r m s).sp = s.sp := rfl
@[simp] theorem compareWith_pc (r m : Byte) (s : State) : (compareWith r m s).pc = s.pc := rfl
@[simp] theorem compareWith_flagC (r m : Byte) (s : State) : (compareWith r m s).flagC = decide (m.toNat ≤ r.toNat) := rfl
@[simp] theorem compareWith_flagZ (r m : Byte) (s : State) : (compareWith r m s).flagZ = (r == m) := rfl
@[simp] theorem compareWith_flagI (r m : Byte) (s : State) : (compareWith r m s).flagI = s.flagI := rfl
@[simp] theorem compareWith_flagD (r m : Byte) (s : State) : (compareWith r m s).flagD = s.flagD := rfl
@[simp] theorem compareWith_flagV (r m : Byte) (s : State) : (compareWith r m s).flagV = s.flagV := rfl
@[simp] theorem compareWith_flagN (r m : Byte) (s : State) : (compareWith r m s).flagN = (r - m).getLsbD 7 := rfl
@[simp] theorem compareWith_nmiPending (r m : Byte) (s : State) : (compareWith r m s).nmiPending = s.nmiPending := rfl
@[simp] theorem compareWith_irqPending (r m : Byte) (s : State) : (compareWith r m s).irqPending = s.irqPending := rfl
@[simp] theorem compareWith_cyclesRemaining (r m : Byte) (s : State) : (compareWith r m s).cyclesRemaining = s.cyclesRemaining := rfl
@[simp] theorem compareWith_ram (r m : Byte) (s : State) : (compareWith r m s).ram = s.ram := rfl
@[simp] theorem compareWith_port1 (r m : Byte) (s : State) : (compareWith r m s).port1 = s.port1 := rfl
@[simp] theorem compareWith_port2 (r m : Byte) (s : State) : (compareWith r m s).port2 = s.port2 := rfl
@[simp] theorem compareWith_strobe (r m : Byte) (s : State) : (compareWith r m s).strobe = s.strobe := rfl
@[simp] theorem compareWith_inDma (r m : Byte) (s : State) : (compareWith r m s).inDma = s.inDma := rfl
@[simp] theorem compareWith_dmaPage (r m : Byte) (s : State) : (compareWith r m s).dmaPage = s.dmaPage := rfl
@[simp] theorem compareWith_dmaCounter (r m : Byte) (s : State) : (compareWith r m s).dmaCounter = s.dmaCounter := rfl
@[simp] theorem compareWith_dmaValue (r m : Byte) (s : State) : (compareWith r m s).dmaValue = s.dmaValue := rfl
@[simp] theorem compareWith_masterCycle (r m : Byte) (s : State) : (compareWith r m s).masterCycle = s.masterCycle := rfl
@[simp] theorem compareWith_ppu (r m : Byte) (s : State) : (compareWith r m s).ppu = s.ppu := rfl
@[simp] theorem compareWith_apu (r m : Byte) (s : State) : (compareWith r m s).apu = s.apu := rfl
@[simp] theorem compareWith_cart (r m : Byte) (s : State) : (compareWith r m s).cart = s.cart := rfl
@[simp] theorem compareWith_args (r m : Byte) (s : State) : (compareWith r m s).args = s.args := rfl

@[simp] theorem adcInto_a (m : Byte) (s : State) : (adcInto m s).a = BitVec.ofNat 8 (adcSum s.a m s.flagC) := rfl
@[simp] theorem adcInto_x (m : Byte) (s : State) : (adcInto m s).x = s.x := rfl
@[simp] theorem adcInto_y (m : Byte) (s : State) : (adcInto m s).y = s.y := rfl
@[simp] theorem adcInto_sp (m : Byte) (s : State) : (adcInto m s).sp = s.sp := rfl
@[simp] theorem adcInto_pc (m : Byte) (s : State) : (adcInto m s).pc = s.pc := rfl
@[simp] theorem adcInto_flagC (m : Byte) (s : State) : (adcInto m s).flagC = decide (0xFF < adcSum s.a m s.flagC) := rfl
@[simp] theorem adcInto_flagZ (m : Byte) (s : State) : (adcInto m s).flagZ = (BitVec.ofNat 8 (adcSum s.a m s.flagC) == 0#8) := rfl
@[simp] theorem adcInto_flagI (m : Byte) (s : State) : (adcInto m s).flagI = s.flagI := rfl
@[simp] theorem adcInto_flagD (m : Byte) (s : State) : (adcInto m s).flagD = s.flagD := rfl
@[simp] theorem adcInto_flagV (m : Byte) (s : State) : (adcInto m s).flagV = signDiverges s.a m (BitVec.ofNat 8 (adcSum s.a m s.flagC)) := rfl
@[simp] theorem adcInto_flagN (m : Byte) (s : State) : (adcInto m s).flagN = (BitVec.ofNat 8 (adcSum s.a m s.flagC) : Byte).getLsbD 7 := rfl
@[simp] theorem adcInto_nmiPending (m : Byte) (s : State) : (adcInto m s).nmiPending = s.nmiPending := rfl
@[simp] theorem adcInto_irqPending (m : Byte) (s : State) : (adcInto m s).irqPending = s.irqPending := rfl
@[simp] theorem adcInto_cyclesRemaining (m : Byte) (s : State) : (adcInto m s).cyclesRemaining = s.cyclesRemaining := rfl
@[simp] theorem adcInto_ram (m : Byte) (s : State) : (adcInto m s).ram = s.ram := rfl
@[simp] theorem adcInto_port1 (m : Byte) (s : State) : (adcInto m s).port1 = s.port1 := rfl
@[simp] theorem adcInto_port2 (m : Byte) (s : State) : (adcInto m s).port2 = s.port2 := rfl
@[simp] theorem adcInto_strobe (m : Byte) (s : State) : (adcInto m s).strobe = s.strobe := rfl
@[simp] theorem adcInto_inDma (m : Byte) (s : State) : (adcInto m s).inDma = s.inDma := rfl
@[simp] theorem adcInto_dmaPage (m : Byte) (s : State) : (adcInto m s).dmaPage = s.dmaPage := rfl
@[simp] theorem adcInto_dmaCounter (m : Byte) (s : State) : (adcInto m s).dmaCounter = s.dmaCounter := rfl
@[simp] theorem adcInto_dmaValue (m : Byte) (s : State) : (adcInto m s).dmaValue = s.dmaValue := rfl
@[simp] theorem adcInto_masterCycle (m : Byte) (s : State) : (adcInto m s).masterCycle = s.masterCycle := rfl
@[simp] theorem adcInto_ppu (m : Byte) (s : State) : (adcInto m s).ppu = s.ppu := rfl
@[simp] theorem adcInto_apu (m : Byte) (s : State) : (adcInto m s).apu = s.apu := rfl
@[simp] theorem adcInto_cart (m : Byte) (s : State) : (adcInto m s).cart = s.cart := rfl
@[simp] theorem adcInto_args (m : Byte) (s : State) : (adcInto m s).args = s.args := rfl

@[simp] theorem withPic_a (s : State) (q : Pic) : (s.withPic q).a = s.a := rfl
@[simp] theorem withPic_x (s : State) (q : Pic) : (s.withPic q).x = s.x := rfl
@[simp] theorem withPic_y (s : State) (q : Pic) : (s.withPic q).y = s.y := rfl
@[simp] theorem withPic_sp (s : State) (q : Pic) : (s.withPic q).sp = s.sp := rfl
@[simp] theorem withPic_pc (s : State) (q : Pic) : (s.withPic q).pc = s.pc := rfl
@[simp] theorem withPic_flagC (s : State) (q : Pic) : (s.withPic q).flagC = s.flagC := rfl
@[simp] theorem withPic_flagZ (s : State) (q : Pic) : (s.withPic q).flagZ = s.flagZ := rfl
@[simp] theorem withPic_flagI (s : State) (q : Pic) : (s.withPic q).flagI = s.flagI := rfl
@[simp] theorem withPic_flagD (s : State) (q : Pic) : (s.withPic q).flagD = s.flagD := rfl
@[simp] theorem withPic_flagV (s : State) (q : Pic) : (s.withPic q).flagV = s.flagV := rfl
@[simp] theorem withPic_flagN (s : State) (q : Pic) : (s.withPic q).flagN = s.flagN := rfl
@[simp] theorem withPic_nmiPending (s : State) (q : Pic) : (s.withPic q).nmiPending = q.nmiPending := rfl
@[simp] theorem withPic_irqPending (s : State) (q : Pic) : (s.withPic q).irqPending = s.irqPending := rfl
@[simp] theorem withPic_cyclesRemaining (s : State) (q : Pic) : (s.withPic q).cyclesRemaining = s.cyclesRemaining := rfl
@[simp] theorem withPic_ram (s : State) (q : Pic) : (s.withPic q).ram = s.ram := rfl
@[simp] theorem withPic_port1 (s : State) (q : Pic) : (s.withPic q).port1 = s.port1 := rfl
@[simp] theorem withPic_port2 (s : State) (q : Pic) : (s.withPic q).port2 = s.port2 := rfl
@[simp] theorem withPic_strobe (s : State) (q : Pic) : (s.withPic q).strobe = s.strobe := rfl
@[simp] theorem withPic_inDma (s : State) (q : Pic) : (s.withPic q).inDma = s.inDma := rfl
@[simp] theorem withPic_dmaPage (s : State) (q : Pic) : (s.withPic q).dmaPage = s.dmaPage := rfl
@[simp] theorem withPic_dmaCounter (s : State) (q : Pic) : (s.withPic q).dmaCounter = s.dmaCounter := rfl
@[simp] theorem withPic_dmaValue (s : State) (q : Pic) : (s.withPic q).dmaValue = s.dmaValue := rfl
@[simp] theorem withPic_masterCycle (s : State) (q : Pic) : (s.withPic q).masterCycle = s.masterCycle := rfl
@[simp] theorem withPic_ppu (s : State) (q : Pic) : (s.withPic q).ppu = q.ppu := rfl
@[simp] theorem withPic_apu (s : State) (q : Pic) : (s.withPic q).apu = s.apu := rfl
@[simp] theorem withPic_cart (s : State) (q : Pic) : (s.withPic q).cart = q.cart := rfl
@[simp] theorem withPic_args (s : State) (q : Pic) : (s.withPic q).args = s.args := rfl

@[simp] theorem startDma_a (s : State) (x : Byte) : (startDma s x).a = s.a := rfl
@[simp] theorem startDma_x (s : State) (x : Byte) : (startDma s x).x = s.x := rfl
@[simp] theorem startDma_y (s : State) (x : Byte) : (startDma s x).y = s.y := rfl
@[simp] theorem startDma_sp (s : State) (x : Byte) : (startDma s x).sp = s.sp := rfl
@[simp] theorem startDma_pc (s : State) (x : Byte) : (startDma s x).pc = s.pc := rfl
@[simp] theorem startDma_flagC (s : State) (x : Byte) : (startDma s x).flagC = s.flagC := rfl
@[simp] theorem startDma_flagZ (s : State) (x : Byte) : (startDma s x).flagZ = s.flagZ := rfl
@[simp] theorem startDma_flagI (s : State) (x : Byte) : (startDma s x).flagI = s.flagI := rfl
@[simp] theorem startDma_flagD (s : State) (x : Byte) : (startDma s x).flagD = s.flagD := rfl
@[simp] theorem startDma_flagV (s : State) (x : Byte) : (startDma s x).flagV = s.flagV := rfl
@[simp] theorem startDma_flagN (s : State) (x : Byte) : (startDma s x).flagN = s.flagN := rfl
@[simp] theorem startDma_nmiPending (s : State) (x : Byte) : (startDma s x).nmiPending = s.nmiPending := rfl
@[simp] theorem startDma_irqPending (s : State) (x : Byte) : (startDma s x).irqPending = s.irqPending := rfl
@[simp] theorem startDma_cyclesRemaining (s : State) (x : Byte) : (startDma s x).cyclesRemaining = s.cyclesRemaining := rfl
@[simp] theorem startDma_ram (s : State) (x : Byte) : (startDma s x).ram = s.ram := rfl
@[simp] theorem startDma_port1 (s : State) (x : Byte) : (startDma s x).port1 = s.port1 := rfl
@[simp] theorem startDma_port2 (s : State) (x : Byte) : (startDma s x).port2 = s.port2 := rfl
@[simp] theorem startDma_strobe (s : State) (x : Byte) : (startDma s x).strobe = s.strobe := rfl
@[simp] theorem startDma_inDma (s : State) (x : Byte) : (startDma s x).inDma = true := rfl
@[simp] theorem startDma_dmaPage (s : State) (x : Byte) : (startDma s x).dmaPage = x := rfl
@[simp] theorem startDma_dmaCounter (s : State) (x : Byte) : (startDma s x).dmaCounter = (if longDma s then 0 else 1) := rfl
@[simp] theorem startDma_dmaValue (s : State) (x : Byte) : (startDma s x).dmaValue = s.dmaValue := rfl
@[simp] theorem startDma_masterCycle (s : State) (x : Byte) : (startDma s x).masterCycle = s.masterCycle := rfl
@[simp] theorem startDma_ppu (s : State) (x : Byte) : (startDma s x).ppu = s.ppu := rfl
@[simp] theorem startDma_apu (s : State) (x : Byte) : (startDma s x).apu = s.apu := rfl
@[simp] theorem startDma_cart (s : State) (x : Byte) : (startDma s x).cart = s.cart := rfl
@[simp] theorem startDma_args (s : State) (x : Byte) : (startDma s x).args = s.args := rfl

@[simp] theorem beginProcessorCycle_a (s : State) : (beginProcessorCycle s).a = s.a := rfl
@[simp] theorem beginProcessorCycle_x (s : State) : (beginProcessorCycle s).x = s.x := rfl
@[simp] theorem beginProcessorCycle_y (s : State) : (beginProcessorCycle s).y = s.y := rfl
@[simp] theorem beginProcessorCycle_sp (s : State) : (beginProcessorCycle s).sp = s.sp := rfl
@[simp] theorem beginProcessorCycle_pc (s : State) : (beginProcessorCycle s).pc = s.pc := rfl
@[simp] theorem beginProcessorCycle_flagC (s : State) : (beginProcessorCycle s).flagC = s.flagC := rfl
@[simp] theorem beginProcessorCycle_flagZ (s : State) : (beginProcessorCycle s).flagZ = s.flagZ := rfl
@[simp] theorem beginProcessorCycle_flagI (s : State) : (beginProcessorCycle s).flagI = s.flagI := rfl
@[simp] theorem beginProcessorCycle_flagD (s : State) : (beginProcessorCycle s).flagD = s.flagD := rfl
@[simp] theorem beginProcessorCycle_flagV (s : State) : (beginProcessorCycle s).flagV = s.flagV := rfl
@[simp] theorem beginProcessorCycle_flagN (s : State) : (beginProcessorCycle s).flagN = s.flagN := rfl
@[simp] theorem beginProcessorCycle_nmiPending (s : State) : (beginProcessorCycle s).nmiPending = s.nmiPending := rfl
@[simp] theorem beginProcessorCycle_irqPending (s : State) : (beginProcessorCycle s).irqPending = irqSources s := rfl
@[simp] theorem beginProcessorCycle_cyclesRemaining (s : State) : (beginProcessorCycle s).cyclesRemaining = s.cyclesRemaining := rfl
@[simp] theorem beginProcessorCycle_ram (s : State) : (beginProcessorCycle s).ram = s.ram := rfl
@[simp] theorem beginProcessorCycle_port1 (s : State) : (beginProcessorCycle s).port1 = s.port1.latch s.strobe := rfl
@[simp] theorem beginProcessorCycle_port2 (s : State) : (beginProcessorCycle s).port2 = s.port2.latch s.strobe := rfl
@[simp] theorem beginProcessorCycle_strobe (s : State) : (beginProcessorCycle s).strobe = s.strobe := rfl
@[simp] theorem beginProcessorCycle_inDma (s : State) : (beginProcessorCycle s).inDma = s.inDma := rfl
@[simp] theorem beginProcessorCycle_dmaPage (s : State) : (beginProcessorCycle s).dmaPage = s.dmaPage := rfl
@[simp] theorem beginProcessorCycle_dmaCounter (s : State) : (beginProcessorCycle s).dmaCounter = s.dmaCounter := rfl
@[simp] theorem beginProcessorCycle_dmaValue (s : State) : (beginProcessorCycle s).dmaValue = s.dmaValue := rfl
@[simp] theorem beginProcessorCycle_masterCycle (s : State) : (beginProcessorCycle s).masterCycle = s.masterCycle := rfl
@[simp] theorem beginProcessorCycle_ppu (s : State) : (beginProcessorCycle s).ppu = s.ppu := rfl
@[simp] theorem beginProcessorCycle_apu (s : State) : (beginProcessorCycle s).apu = s.apu := rfl
@[simp] theorem beginProcessorCycle_cart (s : State) : (beginProcessorCycle s).cart = s.cart := rfl
@[simp] theorem beginProcessorCycle_args (s : State) : (beginProcessorCycle s).args = s.args := rfl

@[simp] theorem mapperTick_a (s : State) : (mapperTick s).a = s.a := rfl
@[simp] theorem mapperTick_x (s : State) : (mapperTick s).x = s.x := rfl
@[simp] theorem mapperTick_y (s : State) : (mapperTick s).y = s.y := rfl
@[simp] theorem mapperTick_sp (s : State) : (mapperTick s).sp = s.sp := rfl
@[simp] theorem mapperTick_pc (s : State) : (mapperTick s).pc = s.pc := rfl
@[simp] theorem mapperTick_flagC (s : State) : (mapperTick s).flagC = s.flagC := rfl
@[simp] theorem mapperTick_flagZ (s : State) : (mapperTick s).flagZ = s.flagZ := rfl
@[simp] theorem mapperTick_flagI (s : State) : (mapperTick s).flagI = s.flagI := rfl
@[simp] theorem mapperTick_flagD (s : State) : (mapperTick s).flagD = s.flagD := rfl
@[simp] theorem mapperTick_flagV (s : State) : (mapperTick s).flagV = s.flagV := rfl
@[simp] theorem mapperTick_flagN (s : State) : (mapperTick s).flagN = s.flagN := rfl
@[simp] theorem mapperTick_nmiPending (s : State) : (mapperTick s).nmiPending = s.nmiPending := rfl
@[simp] theorem mapperTick_irqPending (s : State) : (mapperTick s).irqPending = s.irqPending := rfl
@[simp] theorem mapperTick_cyclesRemaining (s : State) : (mapperTick s).cyclesRemaining = s.cyclesRemaining := rfl
@[simp] theorem mapperTick_ram (s : State) : (mapperTick s).ram = s.ram := rfl
@[simp] theorem mapperTick_port1 (s : State) : (mapperTick s).port1 = s.port1 := rfl
@[simp] theorem mapperTick_port2 (s : State) : (mapperTick s).port2 = s.port2 := rfl
@[simp] theorem mapperTick_strobe (s : State) : (mapperTick s).strobe = s.strobe := rfl
@[simp] theorem mapperTick_inDma (s : State) : (mapperTick s).inDma = s.inDma := rfl
@[simp] theorem mapperTick_dmaPage (s : State) : (mapperTick s).dmaPage = s.dmaPage := rfl
@[simp] theorem mapperTick_dmaCounter (s : State) : (mapperTick s).dmaCounter = s.dmaCounter := rfl
@[simp] theorem mapperTick_dmaValue (s : State) : (mapperTick s).dmaValue = s.dmaValue := rfl
@[simp] theorem mapperTick_masterCycle (s : State) : (mapperTick s).masterCycle = s.masterCycle := rfl
@[simp] theorem mapperTick_ppu (s : State) : (mapperTick s).ppu = s.ppu := rfl
@[simp] theorem mapperTick_apu (s : State) : (mapperTick s).apu = s.apu := rfl
@[simp] theorem mapperTick_cart (s : State) : (mapperTick s).cart = s.cart.map Cartridge.tick := rfl
@[simp] theorem mapperTick_args (s : State) : (mapperTick s).args = s.args := rfl

@[simp] theorem endMasterCycle_a (s : State) : (endMasterCycle s).a = s.a := rfl
@[simp] theorem endMasterCycle_x (s : State) : (endMasterCycle s).x = s.x := rfl
@[simp] theorem endMasterCycle_y (s : State) : (endMasterCycle s).y = s.y := rfl
@[simp] theorem endMasterCycle_sp (s : State) : (endMasterCycle s).sp = s.sp := rfl
@[simp] theorem endMasterCycle_pc (s : State) : (endMasterCycle s).pc = s.pc := rfl
@[simp] theorem endMasterCycle_flagC (s : State) : (endMasterCycle s).flagC = s.flagC := rfl
@[simp] theorem endMasterCycle_flagZ (s : State) : (endMasterCycle s).flagZ = s.flagZ := rfl
@[simp] theorem endMasterCycle_flagI (s : State) : (endMasterCycle s).flagI = s.flagI := rfl
@[simp] theorem endMasterCycle_flagD (s : State) : (endMasterCycle s).flagD = s.flagD := rfl
@[simp] theorem endMasterCycle_flagV (s : State) : (endMasterCycle s).flagV = s.flagV := rfl
@[simp] theorem endMasterCycle_flagN (s : State) : (endMasterCycle s).flagN = s.flagN := rfl
@[simp] theorem endMasterCycle_nmiPending (s : State) : (endMasterCycle s).nmiPending = s.pic.step.nmiPending := rfl
@[simp] theorem endMasterCycle_irqPending (s : State) : (endMasterCycle s).irqPending = s.irqPending := rfl
@[simp] theorem endMasterCycle_cyclesRemaining (s : State) : (endMasterCycle s).cyclesRemaining = s.cyclesRemaining := rfl
@[simp] theorem endMasterCycle_ram (s : State) : (endMasterCycle s).ram = s.ram := rfl
@[simp] theorem endMasterCycle_port1 (s : State) : (endMasterCycle s).port1 = s.port1 := rfl
@[simp] theorem endMasterCycle_port2 (s : State) : (endMasterCycle s).port2 = s.port2 := rfl
@[simp] theorem endMasterCycle_strobe (s : State) : (endMasterCycle s).strobe = s.strobe := rfl
@[simp] theorem endMasterCycle_inDma (s : State) : (endMasterCycle s).inDma = s.inDma := rfl
@[simp] theorem endMasterCycle_dmaPage (s : State) : (endMasterCycle s).dmaPage = s.dmaPage := rfl
@[simp] theorem endMasterCycle_dmaCounter (s : State) : (endMasterCycle s).dmaCounter = s.dmaCounter := rfl
@[simp] theorem endMasterCycle_dmaValue (s : State) : (endMasterCycle s).dmaValue = s.dmaValue := rfl
@[simp] theorem endMasterCycle_masterCycle (s : State) : (endMasterCycle s).masterCycle = s.masterCycle + 1 := rfl
@[simp] theorem endMasterCycle_ppu (s : State) : (endMasterCycle s).ppu = s.pic.step.ppu := rfl
@[simp] theorem endMasterCycle_apu (s : State) : (endMasterCycle s).apu = s.apu := rfl
@[simp] theorem endMasterCycle_cart (s : State) : (endMasterCycle s).cart = s.pic.step.cart := rfl
@[simp] theorem endMasterCycle_args (s : State) : (endMasterCycle s).args = s.args := rfl

@[simp] theorem withCycleTable_a (rows : Byte → CycleRow) (s : State) : (s.withCycleTable rows).a = s.a := rfl
@[simp] theorem withCycleTable_x (rows : Byte → CycleRow) (s : State) : (s.withCycleTable rows).x = s.x := rfl
@[simp] theorem withCycleTable_y (rows : Byte → CycleRow) (s : State) : (s.withCycleTable rows).y = s.y := rfl
@[simp] theorem withCycleTable_sp (rows : Byte → CycleRow) (s : State) : (s.withCycleTable rows).sp = s.sp := rfl
@[simp] theorem withCycleTable_pc (rows : Byte → CycleRow) (s : State) : (s.withCycleTable rows).pc = s.pc := rfl
@[simp] theorem withCycleTable_flagC (rows : Byte → CycleRow) (s : State) : (s.withCycleTable rows).flagC = s.flagC := rfl
@[simp] theorem withCycleTable_flagZ (rows : Byte → CycleRow) (s : State) : (s.withCycleTable rows).flagZ = s.flagZ := rfl
@[simp] theorem withCycleTable_flagI (rows : Byte → CycleRow) (s : State) : (s.withCycleTable rows).flagI = s.flagI := rfl
@[simp] theorem withCycleTable_flagD (rows : Byte → CycleRow) (s : State) : (s.withCycleTable rows).flagD = s.flagD := rfl
@[simp] theorem withCycleTable_flagV (rows : Byte → CycleRow) (s : State) : (s.withCycleTable rows).flagV = s.flagV := rfl
@[simp] theorem withCycleTable_flagN (rows : Byte → CycleRow) (s : State) : (s.withCycleTable rows).flagN = s.flagN := rfl
@[simp] theorem withCycleTable_nmiPending (rows : Byte → CycleRow) (s : State) : (s.withCycleTable rows).nmiPending = s.nmiPending := rfl
@[simp] theorem withCycleTable_irqPending (rows : Byte → CycleRow) (s : State) : (s.withCycleTable rows).irqPending = s.irqPending := rfl
@[simp] theorem withCycleTable_cyclesRemaining (rows : Byte → CycleRow) (s : State) : (s.withCycleTable rows).cyclesRemaining = s.cyclesRemaining := rfl
@[simp] theorem withCycleTable_ram (rows : Byte → CycleRow) (s : State) : (s.withCycleTable rows).ram = s.ram := rfl
@[simp] theorem withCycleTable_port1 (rows : Byte → CycleRow) (s : State) : (s.withCycleTable rows).port1 = s.port1 := rfl
@[simp] theorem withCycleTable_port2 (rows : Byte → CycleRow) (s : State) : (s.withCycleTable rows).port2 = s.port2 := rfl
@[simp] theorem withCycleTable_strobe (rows : Byte → CycleRow) (s : State) : (s.withCycleTable rows).strobe = s.strobe := rfl
@[simp] theorem withCycleTable_inDma (rows : Byte → CycleRow) (s : State) : (s.withCycleTable rows).inDma = s.inDma := rfl
@[simp] theorem withCycleTable_dmaPage (rows : Byte → CycleRow) (s : State) : (s.withCycleTable rows).dmaPage = s.dmaPage := rfl
@[simp] theorem withCycleTable_dmaCounter (rows : Byte → CycleRow) (s : State) : (s.withCycleTable rows).dmaCounter = s.dmaCounter := rfl
@[simp] theorem withCycleTable_dmaValue (rows : Byte → CycleRow) (s : State) : (s.withCycleTable rows).dmaValue = s.dmaValue := rfl
@[simp] theorem withCycleTable_masterCycle (rows : Byte → CycleRow) (s : State) : (s.withCycleTable rows).masterCycle = s.masterCycle := rfl
@[simp] theorem withCycleTable_ppu (rows : Byte → CycleRow) (s : State) : (s.withCycleTable rows).ppu = s.ppu := rfl
@[simp] theorem withCycleTable_apu (rows : Byte → CycleRow) (s : State) : (s.withCycleTable rows).apu = s.apu := rfl
@[simp] theorem withCycleTable_cart (rows : Byte → CycleRow) (s : State) : (s.withCycleTable rows).cart = s.cart := rfl
@[simp] theorem withCycleTable_args (rows : Byte → CycleRow) (s : State) : (s.withCycleTable rows).args = { s.args with cycleTable := cycleTableOf rows } := rfl

@[simp] theorem withArgs_a (a : Arguments) (s : State) : (s.withArgs a).a = s.a := rfl
@[simp] theorem withArgs_x (a : Arguments) (s : State) : (s.withArgs a).x = s.x := rfl
@[simp] theorem withArgs_y (a : Arguments) (s : State) : (s.withArgs a).y = s.y := rfl
@[simp] theorem withArgs_sp (a : Arguments) (s : State) : (s.withArgs a).sp = s.sp := rfl
@[simp] theorem withArgs_pc (a : Arguments) (s : State) : (s.withArgs a).pc = s.pc := rfl
@[simp] theorem withArgs_flagC (a : Arguments) (s : State) : (s.withArgs a).flagC = s.flagC := rfl
@[simp] theorem withArgs_flagZ (a : Arguments) (s : State) : (s.withArgs a).flagZ = s.flagZ := rfl
@[simp] theorem withArgs_flagI (a : Arguments) (s : State) : (s.withArgs a).flagI = s.flagI := rfl
@[simp] theorem withArgs_flagD (a : Arguments) (s : State) : (s.withArgs a).flagD = s.flagD := rfl
@[simp] theorem withArgs_flagV (a : Arguments) (s : State) : (s.withArgs a).flagV = s.flagV := rfl
@[simp] theorem withArgs_flagN (a : Arguments) (s : State) : (s.withArgs a).flagN = s.flagN := rfl
@[simp] theorem withArgs_nmiPending (a : Arguments) (s : State) : (s.withArgs a).nmiPending = s.nmiPending := rfl
@[simp] theorem withArgs_irqPending (a : Arguments) (s : State) : (s.withArgs a).irqPending = s.irqPending := rfl
@[simp] theorem withArgs_cyclesRemaining (a : Arguments) (s : State) : (s.withArgs a).cyclesRemaining = s.cyclesRemaining := rfl
@[simp] theorem withArgs_ram (a : Arguments) (s : State) : (s.withArgs a).ram = s.ram := rfl
@[simp] theorem withArgs_port1 (a : Arguments) (s : State) : (s.withArgs a).port1 = s.port1 := rfl
@[simp] theorem withArgs_port2 (a : Arguments) (s : State) : (s.withArgs a).port2 = s.port2 := rfl
@[simp] theorem withArgs_strobe (a : Arguments) (s : State) : (s.withArgs a).strobe = s.strobe := rfl
@[simp] theorem withArgs_inDma (a : Arguments) (s : State) : (s.withArgs a).inDma = s.inDma := rfl
@[simp] theorem withArgs_dmaPage (a : Arguments) (s : State) : (s.withArgs a).dmaPage = s.dmaPage := rfl
@[simp] theorem withArgs_dmaCounter (a : Arguments) (s : State) : (s.withArgs a).dmaCounter = s.dmaCounter := rfl
@[simp] theorem withArgs_dmaValue (a : Arguments) (s : State) : (s.withArgs a).dmaValue = s.dmaValue := rfl
@[simp] theorem withArgs_masterCycle (a : Arguments) (s : State) : (s.withArgs a).masterCycle = s.masterCycle := rfl
@[simp] theorem withArgs_ppu (a : Arguments) (s : State) : (s.withArgs a).ppu = s.ppu := rfl
@[simp] theorem withArgs_apu (a : Arguments) (s : State) : (s.withArgs a).apu = s.apu := rfl
@[simp] theorem withArgs_cart (a : Arguments) (s : State) : (s.withArgs a).cart = s.cart := rfl
@[simp] theorem withArgs_args (a : Arguments) (s : State) : (s.withArgs a).args = a := rfl

end Sys2Proof.Machine
end

