-- ==== Sys2Proof/Laws/Bus.lean ====
section
/-! SUPPORT. What the bus operations, the stack and the operand reads leave alone. -/

namespace Sys2Proof.Machine

/-- A bus read changes at most the picture unit, the cartridge, the audio unit and the ports (R61). -/
theorem afterRead_shape (s : State) (a : Word) : ∃ p c u p1 p2,
    afterRead s a = { s with ppu := p, cart := c, apu := u, port1 := p1, port2 := p2 } := by
  unfold afterRead
  split
  · exact ⟨_, _, _, _, _, rfl⟩
  · split
    · have h : (s.pic.afterRead (ppuRegister a)).nmiPending = s.nmiPending := by
        unfold Pic.afterRead; repeat' split
        all_goals rfl
      exact ⟨_, _, s.apu, s.port1, s.port2, by unfold State.withPic; rw [h]⟩
    · split
      · exact ⟨_, _, _, _, _, rfl⟩
      · split
        · exact ⟨_, _, _, _, _, rfl⟩
        · split <;> exact ⟨_, _, _, _, _, rfl⟩

/-- A write to the I/O window changes at most the audio unit, the strobe and the DMA registers (R55). -/
theorem ioWrite_shape (s : State) (a : Word) (x : Byte) : ∃ u st d pg ct,
    ioWrite s a x = { s with apu := u, strobe := st, inDma := d, dmaPage := pg, dmaCounter := ct } := by
  refine ⟨(ioWrite s a x).apu, (ioWrite s a x).strobe, (ioWrite s a x).inDma, (ioWrite s a x).dmaPage,
    (ioWrite s a x).dmaCounter, ?_⟩
  unfold ioWrite
  split_ifs <;> rfl

/-- A bus write changes at most work RAM, the picture unit, the cartridge, the NMI latch, the audio unit,
the strobe and the DMA registers (R62). -/
theorem busWrite_shape (s : State) (a : Word) (x : Byte) : ∃ r p c n u st d pg ct,
    busWrite s a x =
      { s with ram := r, ppu := p, cart := c, nmiPending := n, apu := u, strobe := st, inDma := d,
               dmaPage := pg, dmaCounter := ct } := by
  unfold busWrite
  split
  · exact ⟨_, _, _, _, _, _, _, _, _, rfl⟩
  · split
    · exact ⟨_, _, _, _, _, _, _, _, _, rfl⟩
    · split
      · obtain ⟨u, st, d, pg, ct, h⟩ := ioWrite_shape s a x
        exact ⟨_, _, _, _, _, _, _, _, _, h⟩
      · exact ⟨_, _, _, _, _, _, _, _, _, rfl⟩

/-! Field by field: a bus read. -/

@[simp] theorem afterRead_a (s : State) (a : Word) : (afterRead s a).a = s.a := by
  obtain ⟨_, _, _, _, _, h⟩ := afterRead_shape s a; rw [h]
@[simp] theorem afterRead_x (s : State) (a : Word) : (afterRead s a).x = s.x := by
  obtain ⟨_, _, _, _, _, h⟩ := afterRead_shape s a; rw [h]
@[simp] theorem afterRead_y (s : State) (a : Word) : (afterRead s a).y = s.y := by
  obtain ⟨_, _, _, _, _, h⟩ := afterRead_shape s a; rw [h]
@[simp] theorem afterRead_sp (s : State) (a : Word) : (afterRead s a).sp = s.sp := by
  obtain ⟨_, _, _, _, _, h⟩ := afterRead_shape s a; rw [h]
@[simp] theorem afterRead_pc (s : State) (a : Word) : (afterRead s a).pc = s.pc := by
  obtain ⟨_, _, _, _, _, h⟩ := afterRead_shape s a; rw [h]
@[simp] theorem afterRead_flagC (s : State) (a : Word) : (afterRead s a).flagC = s.flagC := by
  obtain ⟨_, _, _, _, _, h⟩ := afterRead_shape s a; rw [h]
@[simp] theorem afterRead_flagZ (s : State) (a : Word) : (afterRead s a).flagZ = s.flagZ := by
  obtain ⟨_, _, _, _, _, h⟩ := afterRead_shape s a; rw [h]
@[simp] theorem afterRead_flagI (s : State) (a : Word) : (afterRead s a).flagI = s.flagI := by
  obtain ⟨_, _, _, _, _, h⟩ := afterRead_shape s a; rw [h]
@[simp] theorem afterRead_flagD (s : State) (a : Word) : (afterRead s a).flagD = s.flagD := by
  obtain ⟨_, _, _, _, _, h⟩ := afterRead_shape s a; rw [h]
@[simp] theorem afterRead_flagV (s : State) (a : Word) : (afterRead s a).flagV = s.flagV := by
  obtain ⟨_, _, _, _, _, h⟩ := afterRead_shape s a; rw [h]
@[simp] theorem afterRead_flagN (s : State) (a : Word) : (afterRead s a).flagN = s.flagN := by
  obtain ⟨_, _, _, _, _, h⟩ := afterRead_shape s a; rw [h]
@[simp] theorem afterRead_irqPending (s : State) (a : Word) : (afterRead s a).irqPending = s.irqPending := by
  obtain ⟨_, _, _, _, _, h⟩ := afterRead_shape s a; rw [h]
@[simp] theorem afterRead_cyclesRemaining (s : State) (a : Word) : (afterRead s a).cyclesRemaining = s.cyclesRemaining := by
  obtain ⟨_, _, _, _, _, h⟩ := afterRead_shape s a; rw [h]
@[simp] theorem afterRead_dmaValue (s : State) (a : Word) : (afterRead s a).dmaValue = s.dmaValue := by
  obtain ⟨_, _, _, _, _, h⟩ := afterRead_shape s a; rw [h]
@[simp] theorem afterRead_masterCycle (s : State) (a : Word) : (afterRead s a).masterCycle = s.masterCycle := by
  obtain ⟨_, _, _, _, _, h⟩ := afterRead_shape s a; rw [h]
@[simp] theorem afterRead_args (s : State) (a : Word) : (afterRead s a).args = s.args := by
  obtain ⟨_, _, _, _, _, h⟩ := afterRead_shape s a; rw [h]
@[simp] theorem afterRead_ram (s : State) (a : Word) : (afterRead s a).ram = s.ram := by
  obtain ⟨_, _, _, _, _, h⟩ := afterRead_shape s a; rw [h]
@[simp] theorem afterRead_strobe (s : State) (a : Word) : (afterRead s a).strobe = s.strobe := by
  obtain ⟨_, _, _, _, _, h⟩ := afterRead_shape s a; rw [h]
@[simp] theorem afterRead_inDma (s : State) (a : Word) : (afterRead s a).inDma = s.inDma := by
  obtain ⟨_, _, _, _, _, h⟩ := afterRead_shape s a; rw [h]
@[simp] theorem afterRead_dmaPage (s : State) (a : Word) : (afterRead s a).dmaPage = s.dmaPage := by
  obtain ⟨_, _, _, _, _, h⟩ := afterRead_shape s a; rw [h]
@[simp] theorem afterRead_dmaCounter (s : State) (a : Word) : (afterRead s a).dmaCounter = s.dmaCounter := by
  obtain ⟨_, _, _, _, _, h⟩ := afterRead_shape s a; rw [h]
@[simp] theorem afterRead_nmiPending (s : State) (a : Word) : (afterRead s a).nmiPending = s.nmiPending := by
  obtain ⟨_, _, _, _, _, h⟩ := afterRead_shape s a; rw [h]
@[simp] theorem busRead_fst (s : State) (a : Word) : (busRead s a).1 = busPeek s a := rfl
@[simp] theorem busRead_snd (s : State) (a : Word) : (busRead s a).2 = afterRead s a := rfl

/-! A bus write. -/

@[simp] theorem busWrite_a (s : State) (a : Word) (x : Byte) : (busWrite s a x).a = s.a := by
  obtain ⟨_, _, _, _, _, _, _, _, _, h⟩ := busWrite_shape s a x; rw [h]
@[simp] theorem busWrite_x (s : State) (a : Word) (x : Byte) : (busWrite s a x).x = s.x := by
  obtain ⟨_, _, _, _, _, _, _, _, _, h⟩ := busWrite_shape s a x; rw [h]
@[simp] theorem busWrite_y (s : State) (a : Word) (x : Byte) : (busWrite s a x).y = s.y := by
  obtain ⟨_, _, _, _, _, _, _, _, _, h⟩ := busWrite_shape s a x; rw [h]
@[simp] theorem busWrite_sp (s : State) (a : Word) (x : Byte) : (busWrite s a x).sp = s.sp := by
  obtain ⟨_, _, _, _, _, _, _, _, _, h⟩ := busWrite_shape s a x; rw [h]
@[simp] theorem busWrite_pc (s : State) (a : Word) (x : Byte) : (busWrite s a x).pc = s.pc := by
  obtain ⟨_, _, _, _, _, _, _, _, _, h⟩ := busWrite_shape s a x; rw [h]
@[simp] theorem busWrite_flagC (s : State) (a : Word) (x : Byte) : (busWrite s a x).flagC = s.flagC := by
  obtain ⟨_, _, _, _, _, _, _, _, _, h⟩ := busWrite_shape s a x; rw [h]
@[simp] theorem busWrite_flagZ (s : State) (a : Word) (x : Byte) : (busWrite s a x).flagZ = s.flagZ := by
  obtain ⟨_, _, _, _, _, _, _, _, _, h⟩ := busWrite_shape s a x; rw [h]
@[simp] theorem busWrite_flagI (s : State) (a : Word) (x : Byte) : (busWrite s a x).flagI = s.flagI := by
  obtain ⟨_, _, _, _, _, _, _, _, _, h⟩ := busWrite_shape s a x; rw [h]
@[simp] theorem busWrite_flagD (s : State) (a : Word) (x : Byte) : (busWrite s a x).flagD = s.flagD := by
  obtain ⟨_, _, _, _, _, _, _, _, _, h⟩ := busWrite_shape s a x; rw [h]
@[simp] theorem busWrite_flagV (s : State) (a : Word) (x : Byte) : (busWrite s a x).flagV = s.flagV := by
  obtain ⟨_, _, _, _, _, _, _, _, _, h⟩ := busWrite_shape s a x; rw [h]
@[simp] theorem busWrite_flagN (s : State) (a : Word) (x : Byte) : (busWrite s a x).flagN = s.flagN := by
  obtain ⟨_, _, _, _, _, _, _, _, _, h⟩ := busWrite_shape s a x; rw [h]
@[simp] theorem busWrite_irqPending (s : State) (a : Word) (x : Byte) : (busWrite s a x).irqPending = s.irqPending := by
  obtain ⟨_, _, _, _, _, _, _, _, _, h⟩ := busWrite_shape s a x; rw [h]
@[simp] theorem busWrite_cyclesRemaining (s : State) (a : Word) (x : Byte) : (busWrite s a x).cyclesRemaining = s.cyclesRemaining := by
  obtain ⟨_, _, _, _, _, _, _, _, _, h⟩ := busWrite_shape s a x; rw [h]
@[simp] theorem busWrite_dmaValue (s : State) (a : Word) (x : Byte) : (busWrite s a x).dmaValue = s.dmaValue := by
  obtain ⟨_, _, _, _, _, _, _, _, _, h⟩ := busWrite_shape s a x; rw [h]
@[simp] theorem busWrite_masterCycle (s : State) (a : Word) (x : Byte) : (busWrite s a x).masterCycle = s.masterCycle := by
  obtain ⟨_, _, _, _, _, _, _, _, _, h⟩ := busWrite_shape s a x; rw [h]
@[simp] theorem busWrite_args (s : State) (a : Word) (x : Byte) : (busWrite s a x).args = s.args := by
  obtain ⟨_, _, _, _, _, _, _, _, _, h⟩ := busWrite_shape s a x; rw [h]
@[simp] theorem busWrite_port1 (s : State) (a : Word) (x : Byte) : (busWrite s a x).port1 = s.port1 := by
  obtain ⟨_, _, _, _, _, _, _, _, _, h⟩ := busWrite_shape s a x; rw [h]
@[simp] theorem busWrite_port2 (s : State) (a : Word) (x : Byte) : (busWrite s a x).port2 = s.port2 := by
  obtain ⟨_, _, _, _, _, _, _, _, _, h⟩ := busWrite_shape s a x; rw [h]

/-! Stack operations, reads of two bytes, operands. -/

@[simp] theorem push_a (x : Byte) (s : State) : (push x s).a = s.a := by simp [push]
@[simp] theorem push_x (x : Byte) (s : State) : (push x s).x = s.x := by simp [push]
@[simp] theorem push_y (x : Byte) (s : State) : (push x s).y = s.y := by simp [push]
@[simp] theorem push_pc (x : Byte) (s : State) : (push x s).pc = s.pc := by simp [push]
@[simp] theorem push_flagC (x : Byte) (s : State) : (push x s).flagC = s.flagC := by simp [push]
@[simp] theorem push_flagZ (x : Byte) (s : State) : (push x s).flagZ = s.flagZ := by simp [push]
@[simp] theorem push_flagI (x : Byte) (s : State) : (push x s).flagI = s.flagI := by simp [push]
@[simp] theorem push_flagD (x : Byte) (s : State) : (push x s).flagD = s.flagD := by simp [push]
@[simp] theorem push_flagV (x : Byte) (s : State) : (push x s).flagV = s.flagV := by simp [push]
@[simp] theorem push_flagN (x : Byte) (s : State) : (push x s).flagN = s.flagN := by simp [push]
@[simp] theorem push_irqPending (x : Byte) (s : State) : (push x s).irqPending = s.irqPending := by simp [push]
@[simp] theorem push_cyclesRemaining (x : Byte) (s : State) : (push x s).cyclesRemaining = s.cyclesRemaining := by simp [push]
@[simp] theorem push_dmaValue (x : Byte) (s : State) : (push x s).dmaValue = s.dmaValue := by simp [push]
@[simp] theorem push_masterCycle (x : Byte) (s : State) : (push x s).masterCycle = s.masterCycle := by simp [push]
@[simp] theorem push_args (x : Byte) (s : State) : (push x s).args = s.args := by simp [push]
@[simp] theorem push_port1 (x : Byte) (s : State) : (push x s).port1 = s.port1 := by simp [push]
@[simp] theorem push_port2 (x : Byte) (s : State) : (push x s).port2 = s.port2 := by simp [push]
@[simp] theorem push_sp (x : Byte) (s : State) : (push x s).sp = s.sp - 1#8 := rfl

@[simp] theorem pull_a (s : State) : (pull s).2.a = s.a := by simp [pull, busRead]
@[simp] theorem pull_x (s : State) : (pull s).2.x = s.x := by simp [pull, busRead]
@[simp] theorem pull_y (s : State) : (pull s).2.y = s.y := by simp [pull, busRead]
@[simp] theorem pull_pc (s : State) : (pull s).2.pc = s.pc := by simp [pull, busRead]
@[simp] theorem pull_flagC (s : State) : (pull s).2.flagC = s.flagC := by simp [pull, busRead]
@[simp] theorem pull_flagZ (s : State) : (pull s).2.flagZ = s.flagZ := by simp [pull, busRead]
@[simp] theorem pull_flagI (s : State) : (pull s).2.flagI = s.flagI := by simp [pull, busRead]
@[simp] theorem pull_flagD (s : State) : (pull s).2.flagD = s.flagD := by simp [pull, busRead]
@[simp] theorem pull_flagV (s : State) : (pull s).2.flagV = s.flagV := by simp [pull, busRead]
@[simp] theorem pull_flagN (s : State) : (pull s).2.flagN = s.flagN := by simp [pull, busRead]
@[simp] theorem pull_irqPending (s : State) : (pull s).2.irqPending = s.irqPending := by simp [pull, busRead]
@[simp] theorem pull_cyclesRemaining (s : State) : (pull s).2.cyclesRemaining = s.cyclesRemaining := by simp [pull, busRead]
@[simp] theorem pull_dmaValue (s : State) : (pull s).2.dmaValue = s.dmaValue := by simp [pull, busRead]
@[simp] theorem pull_masterCycle (s : State) : (pull s).2.masterCycle = s.masterCycle := by simp [pull, busRead]
@[simp] theorem pull_args (s : State) : (pull s).2.args = s.args := by simp [pull, busRead]
@[simp] theorem pull_ram (s : State) : (pull s).2.ram = s.ram := by simp [pull, busRead]
@[simp] theorem pull_strobe (s : State) : (pull s).2.strobe = s.strobe := by simp [pull, busRead]
@[simp] theorem pull_inDma (s : State) : (pull s).2.inDma = s.inDma := by simp [pull, busRead]
@[simp] theorem pull_dmaPage (s : State) : (pull s).2.dmaPage = s.dmaPage := by simp [pull, busRead]
@[simp] theorem pull_dmaCounter (s : State) : (pull s).2.dmaCounter = s.dmaCounter := by simp [pull, busRead]
@[simp] theorem pull_nmiPending (s : State) : (pull s).2.nmiPending = s.nmiPending := by simp [pull, busRead]
@[simp] theorem pull_sp (s : State) : (pull s).2.sp = s.sp + 1#8 := by simp [pull, busRead]

@[simp] theorem busReadWord_a (s : State) (lo hi : Word) : (busReadWord s lo hi).2.a = s.a := by
  simp [busReadWord, busRead]
@[simp] theorem busReadWord_x (s : State) (lo hi : Word) : (busReadWord s lo hi).2.x = s.x := by
  simp [busReadWord, busRead]
@[simp] theorem busReadWord_y (s : State) (lo hi : Word) : (busReadWord s lo hi).2.y = s.y := by
  simp [busReadWord, busRead]
@[simp] theorem busReadWord_sp (s : State) (lo hi : Word) : (busReadWord s lo hi).2.sp = s.sp := by
  simp [busReadWord, busRead]
@[simp] theorem busReadWord_pc (s : State) (lo hi : Word) : (busReadWord s lo hi).2.pc = s.pc := by
  simp [busReadWord, busRead]
@[simp] theorem busReadWord_flagC (s : State) (lo hi : Word) : (busReadWord s lo hi).2.flagC = s.flagC := by
  simp [busReadWord, busRead]
@[simp] theorem busReadWord_flagZ (s : State) (lo hi : Word) : (busReadWord s lo hi).2.flagZ = s.flagZ := by
  simp [busReadWord, busRead]
@[simp] theorem busReadWord_flagI (s : State) (lo hi : Word) : (busReadWord s lo hi).2.flagI = s.flagI := by
  simp [busReadWord, busRead]
@[simp] theorem busReadWord_flagD (s : State) (lo hi : Word) : (busReadWord s lo hi).2.flagD = s.flagD := by
  simp [busReadWord, busRead]
@[simp] theorem busReadWord_flagV (s : State) (lo hi : Word) : (busReadWord s lo hi).2.flagV = s.flagV := by
  simp [busReadWord, busRead]
@[simp] theorem busReadWord_flagN (s : State) (lo hi : Word) : (busReadWord s lo hi).2.flagN = s.flagN := by
  simp [busReadWord, busRead]
@[simp] theorem busReadWord_irqPending (s : State) (lo hi : Word) : (busReadWord s lo hi).2.irqPending = s.irqPending := by
  simp [busReadWord, busRead]
@[simp] theorem busReadWord_cyclesRemaining (s : State) (lo hi : Word) : (busReadWord s lo hi).2.cyclesRemaining = s.cyclesRemaining := by
  simp [busReadWord, busRead]
@[simp] theorem busReadWord_dmaValue (s : State) (lo hi : Word) : (busReadWord s lo hi).2.dmaValue = s.dmaValue := by
  simp [busReadWord, busRead]
@[simp] theorem busReadWord_masterCycle (s : State) (lo hi : Word) : (busReadWord s lo hi).2.masterCycle = s.masterCycle := by
  simp [busReadWord, busRead]
@[simp] theorem busReadWord_args (s : State) (lo hi : Word) : (busReadWord s lo hi).2.args = s.args := by
  simp [busReadWord, busRead]
@[simp] theorem busReadWord_ram (s : State) (lo hi : Word) : (busReadWord s lo hi).2.ram = s.ram := by
  simp [busReadWord, busRead]
@[simp] theorem busReadWord_strobe (s : State) (lo hi : Word) : (busReadWord s lo hi).2.strobe = s.strobe := by
  simp [busReadWord, busRead]
@[simp] theorem busReadWord_inDma (s : State) (lo hi : Word) : (busReadWord s lo hi).2.inDma = s.inDma := by
  simp [busReadWord, busRead]
@[simp] theorem busReadWord_dmaPage (s : State) (lo hi : Word) : (busReadWord s lo hi).2.dmaPage = s.dmaPage := by
  simp [busReadWord, busRead]
@[simp] theorem busReadWord_dmaCounter (s : State) (lo hi : Word) : (busReadWord s lo hi).2.dmaCounter = s.dmaCounter := by
  simp [busReadWord, busRead]
@[simp] theorem busReadWord_nmiPending (s : State) (lo hi : Word) : (busReadWord s lo hi).2.nmiPending = s.nmiPending := by
  simp [busReadWord, busRead]

@[simp] theorem locate_a (o : Operand) (s : State) : (locate o s).state.a = s.a := by
  cases o <;> simp [locate]
@[simp] theorem locate_x (o : Operand) (s : State) : (locate o s).state.x = s.x := by
  cases o <;> simp [locate]
@[simp] theorem locate_y (o : Operand) (s : State) : (locate o s).state.y = s.y := by
  cases o <;> simp [locate]
@[simp] theorem locate_sp (o : Operand) (s : State) : (locate o s).state.sp = s.sp := by
  cases o <;> simp [locate]
@[simp] theorem locate_pc (o : Operand) (s : State) : (locate o s).state.pc = s.pc := by
  cases o <;> simp [locate]
@[simp] theorem locate_flagC (o : Operand) (s : State) : (locate o s).state.flagC = s.flagC := by
  cases o <;> simp [locate]
@[simp] theorem locate_flagZ (o : Operand) (s : State) : (locate o s).state.flagZ = s.flagZ := by
  cases o <;> simp [locate]
@[simp] theorem locate_flagI (o : Operand) (s : State) : (locate o s).state.flagI = s.flagI := by
  cases o <;> simp [locate]
@[simp] theorem locate_flagD (o : Operand) (s : State) : (locate o s).state.flagD = s.flagD := by
  cases o <;> simp [locate]
@[simp] theorem locate_flagV (o : Operand) (s : State) : (locate o s).state.flagV = s.flagV := by
  cases o <;> simp [locate]
@[simp] theorem locate_flagN (o : Operand) (s : State) : (locate o s).state.flagN = s.flagN := by
  cases o <;> simp [locate]
@[simp] theorem locate_irqPending (o : Operand) (s : State) : (locate o s).state.irqPending = s.irqPending := by
  cases o <;> simp [locate]
@[simp] theorem locate_cyclesRemaining (o : Operand) (s : State) : (locate o s).state.cyclesRemaining = s.cyclesRemaining := by
  cases o <;> simp [locate]
@[simp] theorem locate_dmaValue (o : Operand) (s : State) : (locate o s).state.dmaValue = s.dmaValue := by
  cases o <;> simp [locate]
@[simp] theorem locate_masterCycle (o : Operand) (s : State) : (locate o s).state.masterCycle = s.masterCycle := by
  cases o <;> simp [locate]
@[simp] theorem locate_args (o : Operand) (s : State) : (locate o s).state.args = s.args := by
  cases o <;> simp [locate]
@[simp] theorem locate_ram (o : Operand) (s : State) : (locate o s).state.ram = s.ram := by
  cases o <;> simp [locate]
@[simp] theorem locate_strobe (o : Operand) (s : State) : (locate o s).state.strobe = s.strobe := by
  cases o <;> simp [locate]
@[simp] theorem locate_inDma (o : Operand) (s : State) : (locate o s).state.inDma = s.inDma := by
  cases o <;> simp [locate]
@[simp] theorem locate_dmaPage (o : Operand) (s : State) : (locate o s).state.dmaPage = s.dmaPage := by
  cases o <;> simp [locate]
@[simp] theorem locate_dmaCounter (o : Operand) (s : State) : (locate o s).state.dmaCounter = s.dmaCounter := by
  cases o <;> simp [locate]
@[simp] theorem locate_nmiPending (o : Operand) (s : State) : (locate o s).state.nmiPending = s.nmiPending := by
  cases o <;> simp [locate]

@[simp] theorem readOperand_a (o : Operand) (s : State) : (readOperand o s).state.a = s.a := by
  cases o <;> simp [readOperand, busRead]
@[simp] theorem readOperand_x (o : Operand) (s : State) : (readOperand o s).state.x = s.x := by
  cases o <;> simp [readOperand, busRead]
@[simp] theorem readOperand_y (o : Operand) (s : State) : (readOperand o s).state.y = s.y := by
  cases o <;> simp [readOperand, busRead]
@[simp] theorem readOperand_sp (o : Operand) (s : State) : (readOperand o s).state.sp = s.sp := by
  cases o <;> simp [readOperand, busRead]
@[simp] theorem readOperand_pc (o : Operand) (s : State) : (readOperand o s).state.pc = s.pc := by
  cases o <;> simp [readOperand, busRead]
@[simp] theorem readOperand_flagC (o : Operand) (s : State) : (readOperand o s).state.flagC = s.flagC := by
  cases o <;> simp [readOperand, busRead]
@[simp] theorem readOperand_flagZ (o : Operand) (s : State) : (readOperand o s).state.flagZ = s.flagZ := by
  cases o <;> simp [readOperand, busRead]
@[simp] theorem readOperand_flagI (o : Operand) (s : State) : (readOperand o s).state.flagI = s.flagI := by
  cases o <;> simp [readOperand, busRead]
@[simp] theorem readOperand_flagD (o : Operand) (s : State) : (readOperand o s).state.flagD = s.flagD := by
  cases o <;> simp [readOperand, busRead]
@[simp] theorem readOperand_flagV (o : Operand) (s : State) : (readOperand o s).state.flagV = s.flagV := by
  cases o <;> simp [readOperand, busRead]
@[simp] theorem readOperand_flagN (o : Operand) (s : State) : (readOperand o s).state.flagN = s.flagN := by
  cases o <;> simp [readOperand, busRead]
@[simp] theorem readOperand_irqPending (o : Operand) (s : State) : (readOperand o s).state.irqPending = s.irqPending := by
  cases o <;> simp [readOperand, busRead]
@[simp] theorem readOperand_cyclesRemaining (o : Operand) (s : State) : (readOperand o s).state.cyclesRemaining = s.cyclesRemaining := by
  cases o <;> simp [readOperand, busRead]
@[simp] theorem readOperand_dmaValue (o : Operand) (s : State) : (readOperand o s).state.dmaValue = s.dmaValue := by
  cases o <;> simp [readOperand, busRead]
@[simp] theorem readOperand_masterCycle (o : Operand) (s : State) : (readOperand o s).state.masterCycle = s.masterCycle := by
  cases o <;> simp [readOperand, busRead]
@[simp] theorem readOperand_args (o : Operand) (s : State) : (readOperand o s).state.args = s.args := by
  cases o <;> simp [readOperand, busRead]
@[simp] theorem readOperand_ram (o : Operand) (s : State) : (readOperand o s).state.ram = s.ram := by
  cases o <;> simp [readOperand, busRead]
@[simp] theorem readOperand_strobe (o : Operand) (s : State) : (readOperand o s).state.strobe = s.strobe := by
  cases o <;> simp [readOperand, busRead]
@[simp] theorem readOperand_inDma (o : Operand) (s : State) : (readOperand o s).state.inDma = s.inDma := by
  cases o <;> simp [readOperand, busRead]
@[simp] theorem readOperand_dmaPage (o : Operand) (s : State) : (readOperand o s).state.dmaPage = s.dmaPage := by
  cases o <;> simp [readOperand, busRead]
@[simp] theorem readOperand_dmaCounter (o : Operand) (s : State) : (readOperand o s).state.dmaCounter = s.dmaCounter := by
  cases o <;> simp [readOperand, busRead]
@[simp] theorem readOperand_nmiPending (o : Operand) (s : State) : (readOperand o s).state.nmiPending = s.nmiPending := by
  cases o <;> simp [readOperand, busRead]


end Sys2Proof.Machine
end

