-- ==== Sys2Proof/Laws/Access.lean ====
section
/-! SUPPORT. Reads without a side effect, reads of plain memory, the zero page and the stack, and reading back
what the bus wrote. -/

namespace Sys2Proof.Machine

/-- The number of a picture-unit register. -/
theorem ppuRegister_toNat (a : Word) : (ppuRegister a).toNat = a.toNat % 8 := by
  simp [ppuRegister, BitVec.extractLsb'_toNat]

/-- The register an address of the window names, from its number modulo 8. -/
theorem ppuRegister_eq {a : Word} {k : Nat} (h : a.toNat % 8 = k) : ppuRegister a = BitVec.ofNat 3 k := by
  apply BitVec.eq_of_toNat_eq
  rw [ppuRegister_toNat, h, BitVec.toNat_ofNat]
  omega

theorem word_eq {a b : Word} (h : a.toNat = b.toNat) : a = b := BitVec.eq_of_toNat_eq h

/-- A read without a side effect leaves the state alone (R61). -/
theorem afterRead_of_not_effect {s : State} {a : Word} (h : ¬ ReadEffectAddress a) : afterRead s a = s := by
  have h2 : a.toNat < 0x4000 → ¬ a.toNat < 0x2000 → a.toNat % 8 ≠ 2 ∧ a.toNat % 8 ≠ 7 := by
    intro hb ha
    unfold ReadEffectAddress at h
    omega
  unfold afterRead
  split_ifs with h1 h3 h4 h5 h6
  · rfl
  · obtain ⟨e2, e7⟩ := h2 h3 h1
    have n2 : ppuRegister a ≠ 2#3 := fun e => e2 (by rw [← ppuRegister_toNat, e]; rfl)
    have n7 : ppuRegister a ≠ 7#3 := fun e => e7 (by rw [← ppuRegister_toNat, e]; rfl)
    simp [Pic.afterRead, n2, n7, State.pic, State.withPic]
  · exact absurd (.inr (.inl (by rw [h4]; rfl))) h
  · exact absurd (.inr (.inr (.inl (by rw [h5]; rfl)))) h
  · exact absurd (.inr (.inr (.inr (by rw [h6]; rfl)))) h
  · rfl

/-- Plain memory is read without a side effect. -/
theorem PlainAddress.not_effect {a : Word} (h : PlainAddress a) : ¬ ReadEffectAddress a := by
  unfold PlainAddress at h
  unfold ReadEffectAddress
  omega

theorem afterRead_plain {s : State} {a : Word} (h : PlainAddress a) : afterRead s a = s :=
  afterRead_of_not_effect h.not_effect

/-! The zero page and the stack. -/

theorem zeroPage_toNat (b : Byte) : (zeroPage b).toNat = b.toNat := by
  have := b.isLt
  simp only [zeroPage, BitVec.toNat_setWidth]; omega

theorem zeroPage_plain (b : Byte) : PlainAddress (zeroPage b) := by
  have := b.isLt
  left; rw [zeroPage_toNat]; omega

theorem stackAddr_toNat (b : Byte) : (stackAddr b).toNat = 0x100 + b.toNat := by
  simp only [stackAddr, wordOf_toNat]; have : (1#8 : Byte).toNat = 1 := rfl; omega

theorem stackAddr_eq (b : Byte) : stackAddr b = stackAt b := by
  have := b.isLt
  apply word_eq
  rw [stackAddr_toNat, stackAt, BitVec.toNat_ofNat]; omega

theorem stackAt_toNat (b : Byte) : (stackAt b).toNat = 0x100 + b.toNat := by
  rw [← stackAddr_eq, stackAddr_toNat]

theorem stackAt_plain (b : Byte) : PlainAddress (stackAt b) := by
  have := b.isLt
  left; rw [stackAt_toNat]; omega

/-- The bytes of plain memory depend on work RAM and the cartridge alone. -/
theorem busPeek_congr {s t : State} {a : Word} (h : PlainAddress a) (hr : t.ram = s.ram)
    (hc : t.cart = s.cart) : busPeek t a = busPeek s a := by
  unfold PlainAddress at h
  unfold busPeek
  split_ifs <;> first | omega | simp [hr, hc]

/-- Computing an address changes nothing: its pointer is in the zero page (R101, R102). -/
theorem busReadWord_zeroPage (s : State) (b c : Byte) :
    busReadWord s (zeroPage b) (zeroPage c) =
      (wordOf (busPeek s (zeroPage b)) (busPeek s (zeroPage c)), s) := by
  simp [busReadWord, busRead, afterRead_plain (zeroPage_plain _)]

@[simp] theorem locate_state (o : Operand) (s : State) : (locate o s).state = s := by
  cases o <;> simp [locate, busReadWord_zeroPage]

/-! The read of an operand. -/

theorem readOperand_imm (b : Byte) (s : State) :
    readOperand (.imm b) s = { value := b, crossed := false, state := s } := rfl

theorem readOperand_mem (o : Operand) (s : State) (h : ∀ b, o ≠ .imm b) :
    readOperand o s =
      { value := busPeek s (locate o s).ea, crossed := (locate o s).crossed,
        state := afterRead s (locate o s).ea } := by
  cases o with
  | imm b => exact absurd rfl (h b)
  | _ => simp [readOperand, busRead]

/-! Reading back. -/

theorem busPeek_ram {s : State} {a : Word} (h : a.toNat < 0x2000) :
    busPeek s a = Memory.read s.ram (a.toNat % 0x800) := by
  simp [busPeek, h, ramIndex]

theorem busWrite_ram {s : State} {a : Word} {x : Byte} (h : a.toNat < 0x2000) :
    busWrite s a x = { s with ram := Memory.write s.ram (a.toNat % 0x800) x } := by
  simp [busWrite, h, ramIndex]

/-- Work RAM after a write to it. -/
theorem busPeek_busWrite_ram {s : State} {a b : Word} {x : Byte} (hw : Memory.wf s.ram = true)
    (h : a.toNat < 0x2000) :
    busPeek (busWrite s a x) b =
      if b.toNat < 0x2000 ∧ b.toNat % 0x800 = a.toNat % 0x800 then x else busPeek s b := by
  rw [busWrite_ram h]
  by_cases hb : b.toNat < 0x2000
  · rw [busPeek_ram hb, busPeek_ram hb, Memory.read_write _ _ _ hw]
    simp [hb]
  · rw [if_neg (fun e => hb e.1)]
    simp [busPeek, hb, State.pic]

theorem busPeek_prgRam {s : State} {a : Word} {c : Cartridge} (h : 0x6000 ≤ a.toNat) (h' : a.toNat < 0x8000)
    (hc : s.cart = some c) (ho : c.regs.prgRamOn = true) :
    busPeek s a = Memory.read c.prgRam (a.toNat % 0x2000) := by
  unfold busPeek
  rw [if_neg (by omega), if_neg (by omega), if_neg (by omega), hc]
  show c.cpuRead a = _
  unfold Cartridge.cpuRead
  rw [if_neg (by omega), if_pos h', if_pos ho]

theorem busWrite_prgRam {s : State} {a : Word} {x : Byte} {c : Cartridge} (h : 0x6000 ≤ a.toNat)
    (h' : a.toNat < 0x8000) (hc : s.cart = some c) (ho : c.regs.prgRamOn = true) :
    busWrite s a x = { s with cart := some { c with prgRam := Memory.write c.prgRam (a.toNat % 0x2000) x } } := by
  unfold busWrite
  rw [if_neg (by omega), if_neg (by omega), if_neg (by omega), hc]
  show { s with cart := some (c.cpuWrite a x) } = _
  unfold Cartridge.cpuWrite
  rw [if_neg (by omega), if_pos h', if_pos ho]

/-- Program RAM that answers is read back at the address written. -/
theorem busPeek_busWrite_prgRam {s : State} {a : Word} {x : Byte}
    (hw : ∀ c, s.cart = some c → Memory.wf c.prgRam = true) (h : ProgramRamAddress s a) :
    busPeek (busWrite s a x) a = x := by
  obtain ⟨h1, h2, c, hc, ho⟩ := h
  rw [busWrite_prgRam h1 h2 hc ho, busPeek_prgRam h1 h2 rfl (by exact ho), Memory.read_write _ _ _ (hw c hc), if_pos rfl]

/-- A write leaves work RAM as it was when it is not to it. -/
theorem busWrite_ram_kept {s : State} {a : Word} {x : Byte} (h : 0x2000 ≤ a.toNat) :
    (busWrite s a x).ram = s.ram := by
  unfold busWrite
  rw [if_neg (by omega)]
  split
  · rfl
  · split
    · obtain ⟨_, _, _, _, _, e⟩ := ioWrite_shape s a x
      rw [e]
    · rfl

theorem busWrite_ram_wf {s : State} (a : Word) (x : Byte) (h : Memory.wf s.ram = true) :
    Memory.wf (busWrite s a x).ram = true := by
  by_cases ha : a.toNat < 0x2000
  · rw [busWrite_ram ha]; exact Memory.write_wf _ _ h
  · rw [busWrite_ram_kept (by omega)]; exact h

/-! The stack as one expression. -/

theorem push_eq (x : Byte) (s : State) :
    push x s = { busWrite s (stackAt s.sp) x with sp := s.sp - 1#8 } := by
  simp [push, stackAddr_eq]

/-- A push is a write to work RAM. -/
theorem push_ram (x : Byte) (s : State) :
    push x s = { s with ram := Memory.write s.ram (0x100 + s.sp.toNat) x, sp := s.sp - 1#8 } := by
  have := s.sp.isLt
  have e : (0x100 + s.sp.toNat) % 0x800 = 0x100 + s.sp.toNat := by omega
  rw [push_eq, busWrite_ram (by rw [stackAt_toNat]; omega), stackAt_toNat, e]

theorem pull_eq (s : State) :
    pull s = (busPeek s (stackAt (s.sp + 1#8)), { s with sp := s.sp + 1#8 }) := by
  simp only [pull, busRead, stackAddr_eq, afterRead_plain (stackAt_plain _)]
  rw [busPeek_congr (t := { s with sp := s.sp + 1#8 }) (s := s) (stackAt_plain _) rfl rfl]

theorem byte_sub_sub (b : Byte) (m n : Nat) : b - BitVec.ofNat 8 m - BitVec.ofNat 8 n = b - BitVec.ofNat 8 (m + n) := by
  apply BitVec.eq_of_toNat_eq
  simp only [BitVec.toNat_sub, BitVec.toNat_ofNat]
  have := b.isLt
  omega

theorem byte_add_add (b : Byte) (m n : Nat) : b + BitVec.ofNat 8 m + BitVec.ofNat 8 n = b + BitVec.ofNat 8 (m + n) := by
  apply BitVec.eq_of_toNat_eq
  simp only [BitVec.toNat_add, BitVec.toNat_ofNat]
  omega

/-- Two pulled bytes. -/
theorem pullWord_eq (s : State) :
    pullWord s =
      (wordOf (busPeek s (stackAt (s.sp + 1#8))) (busPeek s (stackAt (s.sp + 2#8))), { s with sp := s.sp + 2#8 }) := by
  simp only [pullWord, pull_eq]
  have e : s.sp + 1#8 + 1#8 = s.sp + 2#8 := byte_add_add s.sp 1 1
  rw [e, busPeek_congr (t := { s with sp := s.sp + 1#8 }) (s := s) (stackAt_plain _) rfl rfl]

/-- Two pushed bytes. -/
theorem pushWord_eq (w : Word) (s : State) :
    pushWord w s =
      { s with
        ram := Memory.write (Memory.write s.ram (0x100 + s.sp.toNat) (hiByte w)) (0x100 + (s.sp - 1#8).toNat) (loByte w)
        sp := s.sp - 2#8 } := by
  simp only [pushWord, push_ram]
  rw [show s.sp - 1#8 - 1#8 = s.sp - 2#8 from byte_sub_sub s.sp 1 1]

end Sys2Proof.Machine
end

