-- ==== Sys2Proof/Laws/Forms.lean ====
section
/-! SUPPORT. One lemma per shared shape of an instruction: what `readWith`, `storeTo`, `modifyAt`, `modifyA`,
`finish` and `branch` answer, in the words of Safety.lean. -/

namespace Sys2Proof.Machine

/-- The cost of an instruction by the machine's table, in the words of the statements: `r` is the default row of
its opcode. -/
theorem cyclesOf_eq {op : Byte} {i : Instr} {n : Nat} {star : Bool}
    (hr : defaultRow op = { base := n, penalty := star }) (ho : opcodeOf i = op) (s : State) (x : Bool) :
    cyclesOf s op x = costOr s i n star x := by
  simp only [cyclesOf, CycleRow.cost, cycleRow, costOr, rowOr, hr, ho, Bool.and_comm]

/-- A read instruction has the read form. -/
theorem readForm_of {bytes : List Byte} {i : Instr} {o : Operand} {n : Nat} {star : Bool}
    {f g : Byte → State → State} (op : Byte) (hd : Encodes bytes i) (he : ∀ s, exec i s = readWith op o f s)
    (hr : defaultRow op = { base := n, penalty := star }) (ho : opcodeOf i = op) (hf : ∀ m s, f m s = g m s) :
    ReadForm bytes i o n star g := by
  refine ⟨hd, fun s => ?_⟩
  rw [he, readWith, finish, cyclesOf_eq hr ho, hf]

/-- A store has the store form. -/
theorem storeForm_of {bytes : List Byte} {i : Instr} {o : Operand} {n : Nat} {v : State → Byte} (op : Byte)
    (hd : Encodes bytes i) (he : ∀ s, exec i s = storeTo op o (v s) s) (hr : defaultRow op = { base := n, penalty := false })
    (ho : opcodeOf i = op) : StoreForm bytes i o n v := by
  refine ⟨hd, fun s => ?_⟩
  rw [he, storeTo, finish, cyclesOf_eq hr ho]

/-- A modifying instruction has the modify form. -/
theorem modifyForm_of {bytes : List Byte} {i : Instr} {o : Operand} {n : Nat} {f : Byte → Bool → Shifted}
    {r : Byte → Bool → Byte} {c : Byte → Bool → Bool} {g h : Byte → State → State} (op : Byte)
    (hd : Encodes bytes i) (he : ∀ s, exec i s = modifyAt op o f g s) (hr : defaultRow op = { base := n, penalty := false })
    (ho : opcodeOf i = op) (hf : ∀ v b, f v b = { result := r v b, carry := c v b })
    (hg : ∀ m s, g m s = h m s) : ModifyForm bytes i o n r c h := by
  refine ⟨hd, fun s => ?_⟩
  rw [he, modifyAt, finish, cyclesOf_eq hr ho, hf, hg]
  simp only [busRead, afterRead_flagC, locate_flagC]

/-- An instruction without a memory operand has the plain form. -/
theorem plainForm_of {bytes : List Byte} {i : Instr} {n : Nat} {f g : State → State} (op : Byte)
    (hd : Encodes bytes i) (he : ∀ s, exec i s = finish (cyclesOf s op false) (f s)) (hr : defaultRow op = { base := n, penalty := false })
    (ho : opcodeOf i = op) (hf : ∀ s, f s = g s) : PlainForm bytes i n g := by
  refine ⟨hd, fun s => ?_⟩
  rw [he, finish, cyclesOf_eq hr ho, hf]

/-- The branch target as a number law: PC plus the signed offset. -/
theorem branch_target (pc : Word) (off : Byte) :
    pc + off.signExtend 16 = BitVec.ofInt 16 ((pc.toNat : Int) + off.toInt) := by
  apply BitVec.eq_of_toInt_eq
  rw [BitVec.toInt_add, BitVec.toInt_ofInt, BitVec.toInt_signExtend_of_le (by omega),
    BitVec.toInt_eq_toNat_bmod, Int.bmod_add_bmod]

/-- Two addresses are in different pages. -/
theorem pageCross_eq (a b : Word) : pageCross a b = !decide (a.toNat / 256 = b.toNat / 256) := by
  rw [← hiByte_toNat, ← hiByte_toNat, pageCross, bne, Bool.not_inj_iff, Bool.eq_iff_iff, beq_iff_eq,
    decide_eq_true_eq, BitVec.toNat_inj]

/-- A branch has the branch form. -/
theorem branchForm_of {bytes : List Byte} {i : Instr} {off : Byte} {cond : State → Bool} (op : Byte)
    (hd : Encodes bytes i) (he : ∀ s, exec i s = branch op (cond s) off s)
    (hr : defaultRow op = { base := 2, penalty := false }) (ho : opcodeOf i = op) :
    BranchForm bytes i off cond := by
  refine ⟨hd, fun s => ?_⟩
  rw [he, branch, branch_target, cycleRow, hr, ← ho]
  cases cond s
  · simp [finish, rowOr]
  · simp only [finish, if_true, pageCross_eq, rowOr]
    congr 2
    split_ifs <;> simp_all

/-- A shift of A has the plain form. -/
theorem plainA_of {bytes : List Byte} {i : Instr} {f : Byte → Bool → Shifted} {r : Byte → Bool → Byte} {c : Byte → Bool → Bool} (op : Byte) (hd : Encodes bytes i)
    (he : ∀ s, exec i s = modifyA op f s) (hr : defaultRow op = { base := 2, penalty := false })
    (ho : opcodeOf i = op) (hf : ∀ v b, f v b = { result := r v b, carry := c v b }) :
    PlainForm bytes i 2 (fun s =>
      zeroNegative (r s.a s.flagC) { s with a := r s.a s.flagC, flagC := c s.a s.flagC }) := by
  refine ⟨hd, fun s => ?_⟩
  rw [he, modifyA, finish, cyclesOf_eq hr ho, hf, setZN_eq]

/-! The operand functions of BIT, ANC, ALR, ARR and AXS on numbers. -/

theorem bitTest_eq (m : Byte) (s : State) :
    bitTest m s =
      { s with flagZ := decide (s.a &&& m = 0#8), flagN := decide (128 ≤ m.toNat),
               flagV := decide (64 ≤ m.toNat % 128) } := by
  have h : ∀ m : Byte, m.getLsbD 6 = decide (64 ≤ m.toNat % 128) := by decide
  simp only [bitTest, byte_bit7, h]; rfl

theorem ancA_eq (m : Byte) (u : State) :
    ancA m u = zeroNegative (u.a &&& m)
      { u with a := u.a &&& m, flagC := decide (128 ≤ (u.a &&& m).toNat) } := by
  simp only [ancA, andA, setZN_eq, byte_bit7]; rfl

theorem alrA_eq (m : Byte) (u : State) :
    alrA m u = zeroNegative (lsrResult (u.a &&& m) u.flagC)
      { u with a := lsrResult (u.a &&& m) u.flagC, flagC := lowBit (u.a &&& m) u.flagC } := by
  simp only [alrA, setZN_eq, lsrByte_eq]

theorem arrA_eq (m : Byte) (u : State) :
    arrA m u =
      let r := rorResult (u.a &&& m) u.flagC
      zeroNegative r
        { u with a := r, flagC := decide (64 ≤ r.toNat % 128),
                 flagV := decide (64 ≤ r.toNat % 128) != decide (32 ≤ r.toNat % 64) } := by
  have h : ∀ m : Byte, m.getLsbD 6 = decide (64 ≤ m.toNat % 128) ∧
      m.getLsbD 5 = decide (32 ≤ m.toNat % 64) := by decide
  simp only [arrA, setZN_eq, rorByte_eq, (h _).1, (h _).2, Bool.bne_eq_xor]

theorem axsX_eq (m : Byte) (u : State) :
    axsX m u =
      let t := (u.a &&& u.x).toNat
      let r : Byte := BitVec.ofNat 8 ((t + 256 - m.toNat) % 256)
      zeroNegative r { u with x := r, flagC := decide (m.toNat ≤ t) } := by
  have h : ∀ t m : Byte, t - m = BitVec.ofNat 8 ((t.toNat + 256 - m.toNat) % 256) := by
    intro t m
    have := m.isLt
    apply BitVec.eq_of_toNat_eq
    simp only [BitVec.toNat_sub, BitVec.toNat_ofNat]
    omega
  simp only [axsX, setZN_eq, h]

theorem inc_eq (b : Byte) (c : Bool) : b + 1#8 = incResult b c := congrArg Shifted.result (incByte_eq b c)

theorem dec_eq (b : Byte) (c : Bool) : b - 1#8 = decResult b c := congrArg Shifted.result (decByte_eq b c)

/-! Indexed addresses and the NOPs with an operand. -/

/-- A NOP with a memory operand has the plain form of no effect. -/
theorem locateForm_of {bytes : List Byte} {i : Instr} {o : Operand} {n : Nat} (op : Byte)
    (hd : Encodes bytes i) (he : ∀ s, exec i s = locateOnly op o s) (hr : defaultRow op = { base := n, penalty := false })
    (ho : opcodeOf i = op) (hc : ∀ s, (locate o s).crossed = false) :
    PlainForm bytes i n (fun s => s) := by
  refine ⟨hd, fun s => ?_⟩
  rw [he, locateOnly, finish, cyclesOf_eq hr ho, locate_state, hc]

/-- Adding an index register to an address, as numbers. -/
theorem add_index_toNat (w : Word) (x : Byte) : (w + x.setWidth 16).toNat = (w.toNat + x.toNat) % 65536 := by
  have := x.isLt
  simp only [BitVec.toNat_add, BitVec.toNat_setWidth]; omega

/-- Indexing crosses a page exactly when the low byte and the index exceed 255. -/
theorem crossed_eq (w : Word) (x : Byte) :
    pageCross w (w + x.setWidth 16) = decide (255 < w.toNat % 256 + x.toNat) := by
  rw [pageCross_eq, add_index_toNat, ← decide_not, decide_eq_decide]
  have := x.isLt
  have := w.isLt
  omega

/-- The NOPs with an absolute operand indexed by X. -/
theorem locateOnly_abx {i : Instr} (op : Byte) (hr : defaultRow op = { base := 4, penalty := true })
    (ho : opcodeOf i = op) (w : Word) (s : State) :
    locateOnly op (.abx w) s =
      .next { s with
        cyclesRemaining := costOr s i 4 true (decide (255 < w.toNat % 256 + s.x.toNat)) } := by
  simp only [locateOnly, finish, locate, cyclesOf_eq hr ho, crossed_eq]

end Sys2Proof.Machine
end

