-- ==== Sys2Proof/Laws/Bits.lean ====
section
/-! SUPPORT. Masks, shifts and ors of the scroll registers as arithmetic on numbers: the bit fields of the
15-bit `v` and `t` (spec/62_ppu.md R380, R384, R385, R387, R392, R393). -/

namespace Sys2Proof.Machine

/-- A bit of a vector as a remainder of its number. -/
theorem getLsbD_number {n : Nat} (x : BitVec n) (k : Nat) : x.getLsbD k = decide (x.toNat / 2 ^ k % 2 = 1) := by
  rw [BitVec.getLsbD, Nat.testBit_eq_decide_div_mod_eq]

/-- The number of a 15-bit vector given as the vector of a small number. -/
theorem toNat_of_eq {w : BitVec 15} {n : Nat} (h : w = BitVec.ofNat 15 n) (hn : n < 32768) : w.toNat = n := by
  rw [h, BitVec.toNat_ofNat]; exact Nat.mod_eq_of_lt hn

/-- Coarse X of a scroll register. -/
theorem coarseX_number (v : BitVec 15) : (v.extractLsb' 0 5).toNat = v.toNat % 32 := by
  simp [BitVec.extractLsb'_toNat]

/-- Coarse Y of a scroll register. -/
theorem coarseY_number (v : BitVec 15) : (v.extractLsb' 5 5).toNat = v.toNat / 32 % 32 := by
  simp [BitVec.extractLsb'_toNat, Nat.shiftRight_eq_div_pow]

/-- Fine Y of a scroll register. -/
theorem fineY_number (v : BitVec 15) : (v.extractLsb' 12 3).toNat = v.toNat / 4096 := by
  have := v.isLt
  simp [BitVec.extractLsb'_toNat, Nat.shiftRight_eq_div_pow]; omega

/-- Coarse X cleared. -/
theorem clearCoarseX_number (v : BitVec 15) : (v &&& 0x7FE0#15).toNat = v.toNat / 32 * 32 := by
  have hv := v.isLt
  refine toNat_of_eq ?_ (by omega)
  apply BitVec.eq_of_getLsbD_eq
  intro k hk
  interval_cases k
  all_goals
    simp only [BitVec.getLsbD_or, BitVec.getLsbD_and, BitVec.getLsbD_xor, BitVec.getLsbD_ushiftRight,
    BitVec.getLsbD_shiftLeft, BitVec.getLsbD_setWidth, BitVec.getLsbD_extractLsb', BitVec.getLsbD_ofNat]
    simp only [getLsbD_number, Nat.testBit_eq_decide_div_mod_eq]
    try rw [Bool.eq_iff_iff]
    simp
    try first
      | omega
      | (apply iff_of_eq; congr 2; omega)
      | (simp (disch := omega) only [Nat.div_eq_of_lt]; simp; first | omega | (apply iff_of_eq; congr 2; omega))

/-- The horizontal nametable bit flipped. -/
theorem flipNtX_number (v : BitVec 15) : (v ^^^ 0x0400#15).toNat =
    if v.toNat / 1024 % 2 = 1 then v.toNat - 1024 else v.toNat + 1024 := by
  have hv := v.isLt
  refine toNat_of_eq ?_ (by split <;> omega)
  apply BitVec.eq_of_getLsbD_eq
  intro k hk
  split <;> interval_cases k
  all_goals
    simp only [BitVec.getLsbD_or, BitVec.getLsbD_and, BitVec.getLsbD_xor, BitVec.getLsbD_ushiftRight,
    BitVec.getLsbD_shiftLeft, BitVec.getLsbD_setWidth, BitVec.getLsbD_extractLsb', BitVec.getLsbD_ofNat]
    simp only [getLsbD_number, Nat.testBit_eq_decide_div_mod_eq]
    try rw [Bool.eq_iff_iff]
    simp
    try first
      | omega
      | (apply iff_of_eq; congr 2; omega)
      | (simp (disch := omega) only [Nat.div_eq_of_lt]; simp; first | omega | (apply iff_of_eq; congr 2; omega))

/-- The vertical nametable bit flipped. -/
theorem flipNtY_number (v : BitVec 15) : (v ^^^ 0x0800#15).toNat =
    if v.toNat / 2048 % 2 = 1 then v.toNat - 2048 else v.toNat + 2048 := by
  have hv := v.isLt
  refine toNat_of_eq ?_ (by split <;> omega)
  apply BitVec.eq_of_getLsbD_eq
  intro k hk
  split <;> interval_cases k
  all_goals
    simp only [BitVec.getLsbD_or, BitVec.getLsbD_and, BitVec.getLsbD_xor, BitVec.getLsbD_ushiftRight,
    BitVec.getLsbD_shiftLeft, BitVec.getLsbD_setWidth, BitVec.getLsbD_extractLsb', BitVec.getLsbD_ofNat]
    simp only [getLsbD_number, Nat.testBit_eq_decide_div_mod_eq]
    try rw [Bool.eq_iff_iff]
    simp
    try first
      | omega
      | (apply iff_of_eq; congr 2; omega)
      | (simp (disch := omega) only [Nat.div_eq_of_lt]; simp; first | omega | (apply iff_of_eq; congr 2; omega))

/-- Fine Y cleared. -/
theorem clearFineY_number (v : BitVec 15) : (v &&& 0x0FFF#15).toNat = v.toNat % 4096 := by
  have hv := v.isLt
  refine toNat_of_eq ?_ (by omega)
  apply BitVec.eq_of_getLsbD_eq
  intro k hk
  interval_cases k
  all_goals
    simp only [BitVec.getLsbD_or, BitVec.getLsbD_and, BitVec.getLsbD_xor, BitVec.getLsbD_ushiftRight,
    BitVec.getLsbD_shiftLeft, BitVec.getLsbD_setWidth, BitVec.getLsbD_extractLsb', BitVec.getLsbD_ofNat]
    simp only [getLsbD_number, Nat.testBit_eq_decide_div_mod_eq]
    try rw [Bool.eq_iff_iff]
    simp
    try first
      | omega
      | (apply iff_of_eq; congr 2; omega)
      | (simp (disch := omega) only [Nat.div_eq_of_lt]; simp; first | omega | (apply iff_of_eq; congr 2; omega))

/-- Coarse Y cleared. -/
theorem clearCoarseY_number (v : BitVec 15) : (v &&& 0x7C1F#15).toNat = v.toNat / 1024 * 1024 + v.toNat % 32 := by
  have hv := v.isLt
  refine toNat_of_eq ?_ (by omega)
  apply BitVec.eq_of_getLsbD_eq
  intro k hk
  interval_cases k
  all_goals
    simp only [BitVec.getLsbD_or, BitVec.getLsbD_and, BitVec.getLsbD_xor, BitVec.getLsbD_ushiftRight,
    BitVec.getLsbD_shiftLeft, BitVec.getLsbD_setWidth, BitVec.getLsbD_extractLsb', BitVec.getLsbD_ofNat]
    simp only [getLsbD_number, Nat.testBit_eq_decide_div_mod_eq]
    try rw [Bool.eq_iff_iff]
    simp
    try first
      | omega
      | (apply iff_of_eq; congr 2; omega)
      | (simp (disch := omega) only [Nat.div_eq_of_lt]; simp; first | omega | (apply iff_of_eq; congr 2; omega))

/-- Coarse Y set. -/
theorem setCoarseY_number (v : BitVec 15) (c : BitVec 5) : ((v &&& 0x7C1F#15) ||| (c.setWidth 15 <<< 5)).toNat =
    v.toNat / 1024 * 1024 + c.toNat * 32 + v.toNat % 32 := by
  have hv := v.isLt
  have hc := c.isLt
  refine toNat_of_eq ?_ (by omega)
  apply BitVec.eq_of_getLsbD_eq
  intro k hk
  interval_cases k
  all_goals
    simp only [BitVec.getLsbD_or, BitVec.getLsbD_and, BitVec.getLsbD_xor, BitVec.getLsbD_ushiftRight,
    BitVec.getLsbD_shiftLeft, BitVec.getLsbD_setWidth, BitVec.getLsbD_extractLsb', BitVec.getLsbD_ofNat]
    simp only [getLsbD_number, Nat.testBit_eq_decide_div_mod_eq]
    try rw [Bool.eq_iff_iff]
    simp
    try first
      | omega
      | (apply iff_of_eq; congr 2; omega)
      | (simp (disch := omega) only [Nat.div_eq_of_lt]; simp; first | omega | (apply iff_of_eq; congr 2; omega))

/-- The nametable bits a write to register 0 puts in `t` (R387). -/
theorem writeCtrl_t_number (t : BitVec 15) (x : Byte) : (t &&& 0x73FF#15) ||| ((x &&& 0x03#8).setWidth 15 <<< 10) =
    BitVec.ofNat 15 (t.toNat / 4096 * 4096 + x.toNat % 4 * 1024 + t.toNat % 1024) := by
  have ht := t.isLt
  have hx := x.isLt
  apply BitVec.eq_of_getLsbD_eq
  intro k hk
  interval_cases k
  all_goals
    simp only [BitVec.getLsbD_or, BitVec.getLsbD_and, BitVec.getLsbD_xor, BitVec.getLsbD_ushiftRight,
    BitVec.getLsbD_shiftLeft, BitVec.getLsbD_setWidth, BitVec.getLsbD_extractLsb', BitVec.getLsbD_ofNat]
    simp only [getLsbD_number, Nat.testBit_eq_decide_div_mod_eq]
    try rw [Bool.eq_iff_iff]
    simp
    try first
      | omega
      | (apply iff_of_eq; congr 2; omega)
      | (simp (disch := omega) only [Nat.div_eq_of_lt]; simp; first | omega | (apply iff_of_eq; congr 2; omega))

/-- The first write to register 5 (R392). -/
theorem writeScroll_x_number (t : BitVec 15) (x : Byte) : (t &&& 0x7FE0#15) ||| (x >>> 3).setWidth 15 =
    BitVec.ofNat 15 (t.toNat / 32 * 32 + x.toNat / 8) := by
  have ht := t.isLt
  have hx := x.isLt
  apply BitVec.eq_of_getLsbD_eq
  intro k hk
  interval_cases k
  all_goals
    simp only [BitVec.getLsbD_or, BitVec.getLsbD_and, BitVec.getLsbD_xor, BitVec.getLsbD_ushiftRight,
    BitVec.getLsbD_shiftLeft, BitVec.getLsbD_setWidth, BitVec.getLsbD_extractLsb', BitVec.getLsbD_ofNat]
    simp only [getLsbD_number, Nat.testBit_eq_decide_div_mod_eq]
    try rw [Bool.eq_iff_iff]
    simp
    try first
      | omega
      | (apply iff_of_eq; congr 2; omega)
      | (simp (disch := omega) only [Nat.div_eq_of_lt]; simp; first | omega | (apply iff_of_eq; congr 2; omega))

/-- The second write to register 6 (R393). -/
theorem writeAddr_low_number (t : BitVec 15) (x : Byte) : (t &&& 0x7F00#15) ||| x.setWidth 15 =
    BitVec.ofNat 15 (t.toNat / 256 * 256 + x.toNat) := by
  have ht := t.isLt
  have hx := x.isLt
  apply BitVec.eq_of_getLsbD_eq
  intro k hk
  interval_cases k
  all_goals
    simp only [BitVec.getLsbD_or, BitVec.getLsbD_and, BitVec.getLsbD_xor, BitVec.getLsbD_ushiftRight,
    BitVec.getLsbD_shiftLeft, BitVec.getLsbD_setWidth, BitVec.getLsbD_extractLsb', BitVec.getLsbD_ofNat]
    simp only [getLsbD_number, Nat.testBit_eq_decide_div_mod_eq]
    try rw [Bool.eq_iff_iff]
    simp
    try first
      | omega
      | (apply iff_of_eq; congr 2; omega)
      | (simp (disch := omega) only [Nat.div_eq_of_lt]; simp; first | omega | (apply iff_of_eq; congr 2; omega))

/-- The first write to register 6 (R393). -/
theorem writeAddr_high_number (t : BitVec 15) (x : Byte) : (t &&& 0x00FF#15) ||| ((x &&& 0x3F#8).setWidth 15 <<< 8) =
    BitVec.ofNat 15 (x.toNat % 64 * 256 + t.toNat % 256) := by
  have ht := t.isLt
  have hx := x.isLt
  apply BitVec.eq_of_getLsbD_eq
  intro k hk
  interval_cases k
  all_goals
    simp only [BitVec.getLsbD_or, BitVec.getLsbD_and, BitVec.getLsbD_xor, BitVec.getLsbD_ushiftRight,
    BitVec.getLsbD_shiftLeft, BitVec.getLsbD_setWidth, BitVec.getLsbD_extractLsb', BitVec.getLsbD_ofNat]
    simp only [getLsbD_number, Nat.testBit_eq_decide_div_mod_eq]
    try rw [Bool.eq_iff_iff]
    simp
    try first
      | omega
      | (apply iff_of_eq; congr 2; omega)
      | (simp (disch := omega) only [Nat.div_eq_of_lt]; simp; first | omega | (apply iff_of_eq; congr 2; omega))

/-- Quotients of the two numbers of the second write to register 5, split in their fields. -/
theorem scrollFields (a b c d p q : Nat) (hq : q < 8) (hc : c < 32) (hd : d < 32) (hp : p < 32) (hb : b < 4) :
    (8 * p + q) / 8 = p ∧
    (q * 4096 + b * 1024 + p * 32 + d) / 32 = q * 128 + b * 32 + p ∧
    (8 * p + q) / 16 = p / 2 ∧
    (q * 4096 + b * 1024 + p * 32 + d) / 64 = q * 64 + b * 16 + p / 2 ∧
    (8 * p + q) / 32 = p / 4 ∧
    (q * 4096 + b * 1024 + p * 32 + d) / 128 = q * 32 + b * 8 + p / 4 ∧
    (8 * p + q) / 64 = p / 8 ∧
    (q * 4096 + b * 1024 + p * 32 + d) / 256 = q * 16 + b * 4 + p / 8 ∧
    (8 * p + q) / 128 = p / 16 ∧
    (q * 4096 + b * 1024 + p * 32 + d) / 512 = q * 8 + b * 2 + p / 16 ∧
    (4096 * a + 1024 * b + 32 * c + d) / 1024 = 4 * a + b ∧
    (4096 * a + 1024 * b + 32 * c + d) / 2048 = 2 * a + b / 2 ∧
    (q * 4096 + b * 1024 + p * 32 + d) / 1024 = 4 * q + b ∧
    (q * 4096 + b * 1024 + p * 32 + d) / 2048 = 2 * q + b / 2 ∧
    (q * 4096 + b * 1024 + p * 32 + d) / 4096 = q ∧
    (q * 4096 + b * 1024 + p * 32 + d) / 8192 = q / 2 ∧
    (q * 4096 + b * 1024 + p * 32 + d) / 16384 = q / 4 ∧
    (8 * p + q) / 2 = 4 * p + q / 2 ∧
    (8 * p + q) / 4 = 2 * p + q / 4 := by
  refine ⟨?_, ?_, ?_, ?_, ?_, ?_, ?_, ?_, ?_, ?_, ?_, ?_, ?_, ?_, ?_, ?_, ?_, ?_, ?_⟩ <;> omega

/-- The second write to register 5 (R392). -/
theorem writeScroll_y_number (t : BitVec 15) (x : Byte) :
    (t &&& 0x0C1F#15) ||| ((x &&& 7#8).setWidth 15 <<< 12) ||| ((x &&& 0xF8#8).setWidth 15 <<< 2) =
      BitVec.ofNat 15
        (x.toNat % 8 * 4096 + t.toNat / 1024 % 4 * 1024 + x.toNat / 8 * 32 + t.toNat % 32) := by
  have ht := t.isLt
  have hx := x.isLt
  obtain ⟨p, q, hp, hq, e⟩ : ∃ p q, p < 32 ∧ q < 8 ∧ x.toNat = 8 * p + q :=
    ⟨x.toNat / 8, x.toNat % 8, by omega, by omega, by omega⟩
  obtain ⟨a, b, c, d, ha, hb, hc, hd, f⟩ :
      ∃ a b c d, a < 8 ∧ b < 4 ∧ c < 32 ∧ d < 32 ∧ t.toNat = 4096 * a + 1024 * b + 32 * c + d :=
    ⟨t.toNat / 4096, t.toNat / 1024 % 4, t.toNat / 32 % 32, t.toNat % 32, by omega, by omega, by omega,
      by omega, by omega⟩
  have g : x.toNat % 8 * 4096 + t.toNat / 1024 % 4 * 1024 + x.toNat / 8 * 32 + t.toNat % 32 =
      q * 4096 + b * 1024 + p * 32 + d := by omega
  rw [g]
  clear g
  obtain ⟨r0, r1, r2, r3, r4, r5, r6, r7, r8, r9, r10, r11, r12, r13, r14, r15, r16, r17, r18⟩ :=
    scrollFields a b c d p q hq hc hd hp hb
  apply BitVec.eq_of_getLsbD_eq
  intro k hk
  interval_cases k
  all_goals
    simp only [BitVec.getLsbD_or, BitVec.getLsbD_and, BitVec.getLsbD_xor, BitVec.getLsbD_ushiftRight,
    BitVec.getLsbD_shiftLeft, BitVec.getLsbD_setWidth, BitVec.getLsbD_extractLsb', BitVec.getLsbD_ofNat]
    simp only [getLsbD_number, Nat.testBit_eq_decide_div_mod_eq, e, f]
    simp
    try simp only [r0, r1, r2, r3, r4, r5, r6, r7, r8, r9, r10, r11, r12, r13, r14, r15, r16, r17, r18]
    try (clear r0 r1 r2 r3 r4 r5 r6 r7 r8 r9 r10 r11 r12 r13 r14 r15 r16 r17 r18; omega)

end Sys2Proof.Machine
end

