-- ==== Sys2Proof/Laws/Audio.lean ====
section
/-! SUPPORT. Writes to the audio channel registers as arithmetic on numbers, in the words of Safety.lean
(spec/63_apu.md R470, R480, R485, R490). -/

namespace Sys2Proof.Machine

/-- The low byte of a period replaced. -/
theorem periodLow_eq (t : BitVec 11) (x : Byte) : (t &&& 0x700#11) ||| x.setWidth 11 = periodLow x t := by
  have ht := t.isLt
  have hx := x.isLt
  unfold periodLow
  apply BitVec.eq_of_getLsbD_eq
  intro k hk
  interval_cases k
  all_goals
    simp only [BitVec.getLsbD_or, BitVec.getLsbD_and, BitVec.getLsbD_setWidth, BitVec.getLsbD_ofNat]
    simp only [getLsbD_number, Nat.testBit_eq_decide_div_mod_eq]
    try rw [Bool.eq_iff_iff]
    simp
    try omega

/-- The high three bits of a period replaced. -/
theorem periodHigh_eq (t : BitVec 11) (x : Byte) :
    (t &&& 0x0FF#11) ||| ((x &&& 7#8).setWidth 11 <<< 8) = periodHigh x t := by
  have ht := t.isLt
  have hx := x.isLt
  unfold periodHigh
  apply BitVec.eq_of_getLsbD_eq
  intro k hk
  interval_cases k
  all_goals
    simp only [BitVec.getLsbD_or, BitVec.getLsbD_and, BitVec.getLsbD_shiftLeft, BitVec.getLsbD_setWidth,
      BitVec.getLsbD_ofNat]
    simp only [getLsbD_number, Nat.testBit_eq_decide_div_mod_eq]
    try rw [Bool.eq_iff_iff]
    simp
    try omega

/-- The fields of a byte written to an audio register. -/
theorem audioFields (x : Byte) :
    x.extractLsb' 6 2 = BitVec.ofNat 2 (x.toNat / 64) ∧ x.extractLsb' 4 3 = BitVec.ofNat 3 (x.toNat / 16) ∧
      x.extractLsb' 0 3 = BitVec.ofNat 3 x.toNat ∧ x.extractLsb' 0 4 = BitVec.ofNat 4 x.toNat ∧
      x.extractLsb' 0 7 = BitVec.ofNat 7 x.toNat ∧ x.getLsbD 3 = decide (8 ≤ x.toNat % 16) ∧
      x.getLsbD 4 = decide (16 ≤ x.toNat % 32) ∧ x.getLsbD 5 = decide (32 ≤ x.toNat % 64) ∧
      x.getLsbD 6 = decide (64 ≤ x.toNat % 128) ∧ x.getLsbD 7 = decide (128 ≤ x.toNat) ∧
      lengthOf x = lengthLaw x ∧ 0xC000#16 ||| (x.setWidth 16 <<< 6) = BitVec.ofNat 16 (0xC000 + 64 * x.toNat) := by
  revert x; decide

/-- A pulse channel's register write. -/
theorem pulse_write_eq (first : Bool) (p : Pulse) (x : Byte) {r : Nat} (h : r < 4) :
    Pulse.write first p (BitVec.ofNat 2 r) x = pulseLaw first r x p := by
  obtain ⟨f1, f2, f3, f4, -, f6, f7, f8, -, f10, f11, -⟩ := audioFields x
  interval_cases r <;>
    simp only [Pulse.write, pulseLaw, envelopeLaw, periodLow_eq, periodHigh_eq, f1, f2, f3, f4, f6, f7, f8, f10,
      f11] <;> rfl

/-- The triangle channel's register write. -/
theorem triangle_write_eq (c : Triangle) (x : Byte) {r : Nat} (h : r < 4) :
    c.write (BitVec.ofNat 2 r) x = triangleLaw r x c := by
  obtain ⟨-, -, -, -, f5, -, -, -, -, f10, f11, -⟩ := audioFields x
  interval_cases r <;>
    simp only [Triangle.write, triangleLaw, periodLow_eq, periodHigh_eq, f5, f10, f11] <;> rfl

/-- The noise channel's register write. -/
theorem noise_write_eq (c : Noise) (x : Byte) {r : Nat} (h : r < 4) :
    c.write (BitVec.ofNat 2 r) x = noiseLaw r x c := by
  obtain ⟨-, -, -, f4, -, -, f7, f8, -, f10, f11, -⟩ := audioFields x
  have hp : ∀ x : Byte, noisePeriodTable.getD (x.toNat % 16) 0 - 1 =
      [3, 7, 15, 31, 63, 95, 127, 159, 201, 253, 379, 507, 761, 1015, 2033, 4067].getD (x.toNat % 16) 0 := by
    decide
  interval_cases r <;> simp only [Noise.write, noiseLaw, envelopeLaw, f4, f7, f8, f10, f11, hp] <;> rfl

/-- The DMC channel's register write. -/
theorem dmc_write_eq (c : Dmc) (x : Byte) {r : Nat} (h : r < 4) :
    c.write (BitVec.ofNat 2 r) x = dmcLaw r x c := by
  obtain ⟨-, -, -, -, f5, -, -, -, f9, f10, -, f12⟩ := audioFields x
  have hp : ∀ x : Byte, dmcRateTable.getD (x.toNat % 16) 0 - 1 =
      [427, 379, 339, 319, 285, 253, 225, 213, 189, 159, 141, 127, 105, 83, 71, 53].getD (x.toNat % 16) 0 := by
    decide
  interval_cases r <;> simp only [Dmc.write, dmcLaw, f5, f9, f10, f12, hp, Nat.mul_comm] <;> rfl

end Sys2Proof.Machine
end

