-- ==== Sys2Proof/Laws/Closed.lean ====
section
/-! SUPPORT. What every instruction can do to the machine, said once: a relation of states that reads, writes
and changes of the CPU's own registers keep is kept by every instruction, by the fetch and by the interrupt
entry.  A frame or an invariant of the CPU's work is a choice of the relation. -/

namespace Sys2Proof.Machine

/-- `t` differs from `s` only in A, X, Y, S, PC, the flags and the cycles left. -/
def RegsOnly (s t : State) : Prop :=
  t = { s with
    a := t.a, x := t.x, y := t.y, sp := t.sp, pc := t.pc, flagC := t.flagC, flagZ := t.flagZ
    flagI := t.flagI, flagD := t.flagD, flagV := t.flagV, flagN := t.flagN
    cyclesRemaining := t.cyclesRemaining }

/-- A relation that bus reads and changes of the CPU's registers keep. -/
structure ReadClosed (R : State → State → Prop) : Prop where
  trans : ∀ {s t u}, R s t → R t u → R s u
  regs : ∀ {s t}, RegsOnly s t → R s t
  read : ∀ s a, R s (afterRead s a)

/-- And that bus writes keep. -/
def WriteClosed (R : State → State → Prop) : Prop := ∀ s a x, R s (busWrite s a x)

variable {R : State → State → Prop}

theorem ReadClosed.refl (h : ReadClosed R) (s : State) : R s s := h.regs rfl

theorem ReadClosed.readOperand (h : ReadClosed R) (o : Operand) (s : State) : R s (readOperand o s).state := by
  cases o with
  | imm b => exact h.refl s
  | _ =>
    rw [readOperand_mem _ _ (fun _ e => by cases e)]
    exact h.read _ _

theorem ReadClosed.finish (h : ReadClosed R) {n : Nat} {s t u : State} (e : finish n t = .next u) (g : R s t) :
    R s u := by
  injection e with e
  exact e ▸ h.trans g (h.regs rfl)

theorem ReadClosed.readWith (h : ReadClosed R) {op : Byte} {o : Operand} {f : Byte → State → State} {s t : State}
    (e : readWith op o f s = .next t) (hf : ∀ m u, RegsOnly u (f m u)) : R s t :=
  h.finish e (h.trans (h.readOperand o s) (h.regs (hf _ _)))

theorem ReadClosed.storeTo (h : ReadClosed R) (w : WriteClosed R) {op : Byte} {o : Operand} {x : Byte}
    {s t : State} (e : storeTo op o x s = .next t) : R s t := by
  refine h.finish e ?_
  rw [locate_state]
  exact w _ _ _

theorem ReadClosed.modifyAt (h : ReadClosed R) (w : WriteClosed R) {op : Byte} {o : Operand}
    {f : Byte → Bool → Shifted} {g : Byte → State → State} {s t : State} (e : modifyAt op o f g s = .next t)
    (hg : ∀ m u, RegsOnly u (g m u)) : R s t := by
  refine h.finish e ?_
  rw [locate_state]
  exact h.trans (h.read s _) (h.trans (w _ _ _) (h.trans (h.regs (t := { busWrite _ _ _ with flagC := _ }) rfl)
    (h.regs (hg _ _))))

theorem ReadClosed.locateOnly (h : ReadClosed R) {op : Byte} {o : Operand} {s t : State}
    (e : locateOnly op o s = .next t) : R s t :=
  h.finish e (by rw [locate_state]; exact h.refl s)

theorem ReadClosed.branch (h : ReadClosed R) {op : Byte} {c : Bool} {off : Byte} {s t : State}
    (e : branch op c off s = .next t) : R s t := by
  cases c
  · exact h.finish e (h.refl s)
  · exact h.finish e (h.regs rfl)

theorem ReadClosed.push (h : ReadClosed R) (w : WriteClosed R) (x : Byte) (s : State) : R s (push x s) :=
  h.trans (w s (stackAddr s.sp) x) (h.regs rfl)

theorem ReadClosed.pushWord (h : ReadClosed R) (w : WriteClosed R) (x : Word) (s : State) : R s (pushWord x s) :=
  h.trans (h.push w _ _) (h.push w _ _)

theorem ReadClosed.pull (h : ReadClosed R) (s : State) : R s (pull s).2 := by
  rw [pull_eq]
  exact h.regs rfl

theorem ReadClosed.pullWord (h : ReadClosed R) (s : State) : R s (pullWord s).2 := by
  rw [pullWord_eq]
  exact h.regs rfl

theorem ReadClosed.busReadWord (h : ReadClosed R) (s : State) (lo hi : Word) : R s (busReadWord s lo hi).2 :=
  h.trans (h.read s lo) (h.read _ hi)

theorem ReadClosed.interruptEntry (h : ReadClosed R) (w : WriteClosed R) (v : Word) (b : Bool) (ret : Word)
    (s : State) : R s (interruptEntry v b ret s) := by
  have h1 := h.pushWord w ret s
  have h2 := h.push w (packP b (Machine.pushWord ret s)) (Machine.pushWord ret s)
  unfold Machine.interruptEntry
  dsimp only
  generalize Machine.push (packP b (Machine.pushWord ret s)) (Machine.pushWord ret s) = s2 at *
  have h3 : R s2 { s2 with flagI := true } := h.regs rfl
  have h4 := h.busReadWord { s2 with flagI := true } v (v + 1#16)
  generalize Machine.busReadWord { s2 with flagI := true } v (v + 1#16) = r at *
  exact h.trans h1 (h.trans h2 (h.trans h3 (h.trans h4 (h.regs rfl))))

theorem ReadClosed.interruptReturn (h : ReadClosed R) (s : State) : R s (interruptReturn s) := by
  unfold Machine.interruptReturn
  exact h.trans (h.pull s) (h.trans (h.regs (t := unpackP _ _) rfl) (h.trans (h.pullWord _) (h.regs rfl)))

theorem ReadClosed.jumpIndirect (h : ReadClosed R) (w : Word) (s : State) : R s (jumpIndirect w s) :=
  h.trans (h.busReadWord _ _ _) (h.regs rfl)

theorem ReadClosed.fetchByte (h : ReadClosed R) (s : State) : R s (fetchByte s).2 :=
  h.trans (h.read s s.pc) (h.regs rfl)

theorem ReadClosed.fetchInstr (h : ReadClosed R) (s : State) : R s (fetchInstr s).2 := by
  unfold Machine.fetchInstr
  dsimp only
  cases rowOf (Machine.fetchByte s).1 with
  | one i => exact h.fetchByte s
  | two mk =>
    dsimp only
    split
    · exact h.trans (h.fetchByte s) (h.regs rfl)
    · exact h.trans (h.fetchByte s) (h.fetchByte _)
  | three mk => exact h.trans (h.fetchByte s) (h.trans (h.fetchByte _) (h.fetchByte _))

/-- Every instruction keeps the relation; only the storing and pushing ones need it kept by writes. -/
theorem ReadClosed.exec (h : ReadClosed R) {i : Instr} {s t : State} (e : exec i s = .next t)
    (w : ((opcodeOf i).toNat ∈ stores ∨ (opcodeOf i).toNat ∈ pushes) → WriteClosed R) : R s t := by
  cases i with
  | brk => exact h.finish e (h.interruptEntry (w (.inr (show (0x00#8 : Byte).toNat ∈ pushes by decide))) _ _ _ _)
  | oraIzx x => exact h.readWith e (fun _ _ => rfl)
  | kil02 => exact h.finish e (h.regs rfl)
  | sloIzx x => exact h.modifyAt (w (.inl (show (0x03#8 : Byte).toNat ∈ stores by decide))) e (fun _ _ => rfl)
  | nop04 x => exact h.locateOnly e
  | oraZp x => exact h.readWith e (fun _ _ => rfl)
  | aslZp x => exact h.modifyAt (w (.inl (show (0x06#8 : Byte).toNat ∈ stores by decide))) e (fun _ _ => rfl)
  | sloZp x => exact h.modifyAt (w (.inl (show (0x07#8 : Byte).toNat ∈ stores by decide))) e (fun _ _ => rfl)
  | php => exact h.finish e (h.push (w (.inr (show (0x08#8 : Byte).toNat ∈ pushes by decide))) _ _)
  | oraImm x => exact h.readWith e (fun _ _ => rfl)
  | aslAcc => exact h.finish e (h.regs rfl)
  | anc0B x => exact h.readWith e (fun _ _ => rfl)
  | nop0C x => exact h.locateOnly e
  | oraAbs x => exact h.readWith e (fun _ _ => rfl)
  | aslAbs x => exact h.modifyAt (w (.inl (show (0x0E#8 : Byte).toNat ∈ stores by decide))) e (fun _ _ => rfl)
  | sloAbs x => exact h.modifyAt (w (.inl (show (0x0F#8 : Byte).toNat ∈ stores by decide))) e (fun _ _ => rfl)
  | bpl x => exact h.branch e
  | oraIzy x => exact h.readWith e (fun _ _ => rfl)
  | kil12 => exact h.finish e (h.regs rfl)
  | sloIzy x => exact h.modifyAt (w (.inl (show (0x13#8 : Byte).toNat ∈ stores by decide))) e (fun _ _ => rfl)
  | nop14 x => exact h.locateOnly e
  | oraZpx x => exact h.readWith e (fun _ _ => rfl)
  | aslZpx x => exact h.modifyAt (w (.inl (show (0x16#8 : Byte).toNat ∈ stores by decide))) e (fun _ _ => rfl)
  | sloZpx x => exact h.modifyAt (w (.inl (show (0x17#8 : Byte).toNat ∈ stores by decide))) e (fun _ _ => rfl)
  | clc => exact h.finish e (h.regs rfl)
  | oraAby x => exact h.readWith e (fun _ _ => rfl)
  | nop1A => exact h.finish e (h.regs rfl)
  | sloAby x => exact h.modifyAt (w (.inl (show (0x1B#8 : Byte).toNat ∈ stores by decide))) e (fun _ _ => rfl)
  | nop1C x => exact h.locateOnly e
  | oraAbx x => exact h.readWith e (fun _ _ => rfl)
  | aslAbx x => exact h.modifyAt (w (.inl (show (0x1E#8 : Byte).toNat ∈ stores by decide))) e (fun _ _ => rfl)
  | sloAbx x => exact h.modifyAt (w (.inl (show (0x1F#8 : Byte).toNat ∈ stores by decide))) e (fun _ _ => rfl)
  | jsr x => exact h.finish e (h.trans (h.pushWord (w (.inr (show (0x20#8 : Byte).toNat ∈ pushes by decide))) _ _) (h.regs rfl))
  | andIzx x => exact h.readWith e (fun _ _ => rfl)
  | kil22 => exact h.finish e (h.regs rfl)
  | rlaIzx x => exact h.modifyAt (w (.inl (show (0x23#8 : Byte).toNat ∈ stores by decide))) e (fun _ _ => rfl)
  | bitZp x => exact h.readWith e (fun _ _ => rfl)
  | andZp x => exact h.readWith e (fun _ _ => rfl)
  | rolZp x => exact h.modifyAt (w (.inl (show (0x26#8 : Byte).toNat ∈ stores by decide))) e (fun _ _ => rfl)
  | rlaZp x => exact h.modifyAt (w (.inl (show (0x27#8 : Byte).toNat ∈ stores by decide))) e (fun _ _ => rfl)
  | plp => exact h.finish e (h.trans (h.pull s) (h.regs rfl))
  | andImm x => exact h.readWith e (fun _ _ => rfl)
  | rolAcc => exact h.finish e (h.regs rfl)
  | anc2B x => exact h.readWith e (fun _ _ => rfl)
  | bitAbs x => exact h.readWith e (fun _ _ => rfl)
  | andAbs x => exact h.readWith e (fun _ _ => rfl)
  | rolAbs x => exact h.modifyAt (w (.inl (show (0x2E#8 : Byte).toNat ∈ stores by decide))) e (fun _ _ => rfl)
  | rlaAbs x => exact h.modifyAt (w (.inl (show (0x2F#8 : Byte).toNat ∈ stores by decide))) e (fun _ _ => rfl)
  | bmi x => exact h.branch e
  | andIzy x => exact h.readWith e (fun _ _ => rfl)
  | kil32 => exact h.finish e (h.regs rfl)
  | rlaIzy x => exact h.modifyAt (w (.inl (show (0x33#8 : Byte).toNat ∈ stores by decide))) e (fun _ _ => rfl)
  | nop34 x => exact h.locateOnly e
  | andZpx x => exact h.readWith e (fun _ _ => rfl)
  | rolZpx x => exact h.modifyAt (w (.inl (show (0x36#8 : Byte).toNat ∈ stores by decide))) e (fun _ _ => rfl)
  | rlaZpx x => exact h.modifyAt (w (.inl (show (0x37#8 : Byte).toNat ∈ stores by decide))) e (fun _ _ => rfl)
  | sec => exact h.finish e (h.regs rfl)
  | andAby x => exact h.readWith e (fun _ _ => rfl)
  | nop3A => exact h.finish e (h.regs rfl)
  | rlaAby x => exact h.modifyAt (w (.inl (show (0x3B#8 : Byte).toNat ∈ stores by decide))) e (fun _ _ => rfl)
  | nop3C x => exact h.locateOnly e
  | andAbx x => exact h.readWith e (fun _ _ => rfl)
  | rolAbx x => exact h.modifyAt (w (.inl (show (0x3E#8 : Byte).toNat ∈ stores by decide))) e (fun _ _ => rfl)
  | rlaAbx x => exact h.modifyAt (w (.inl (show (0x3F#8 : Byte).toNat ∈ stores by decide))) e (fun _ _ => rfl)
  | rti => exact h.finish e (h.interruptReturn s)
  | eorIzx x => exact h.readWith e (fun _ _ => rfl)
  | kil42 => exact h.finish e (h.regs rfl)
  | sreIzx x => exact h.modifyAt (w (.inl (show (0x43#8 : Byte).toNat ∈ stores by decide))) e (fun _ _ => rfl)
  | nop44 x => exact h.locateOnly e
  | eorZp x => exact h.readWith e (fun _ _ => rfl)
  | lsrZp x => exact h.modifyAt (w (.inl (show (0x46#8 : Byte).toNat ∈ stores by decide))) e (fun _ _ => rfl)
  | sreZp x => exact h.modifyAt (w (.inl (show (0x47#8 : Byte).toNat ∈ stores by decide))) e (fun _ _ => rfl)
  | pha => exact h.finish e (h.push (w (.inr (show (0x48#8 : Byte).toNat ∈ pushes by decide))) _ _)
  | eorImm x => exact h.readWith e (fun _ _ => rfl)
  | lsrAcc => exact h.finish e (h.regs rfl)
  | alr x => exact h.readWith e (fun _ _ => rfl)
  | jmpAbs x => exact h.finish e (h.regs rfl)
  | eorAbs x => exact h.readWith e (fun _ _ => rfl)
  | lsrAbs x => exact h.modifyAt (w (.inl (show (0x4E#8 : Byte).toNat ∈ stores by decide))) e (fun _ _ => rfl)
  | sreAbs x => exact h.modifyAt (w (.inl (show (0x4F#8 : Byte).toNat ∈ stores by decide))) e (fun _ _ => rfl)
  | bvc x => exact h.branch e
  | eorIzy x => exact h.readWith e (fun _ _ => rfl)
  | kil52 => exact h.finish e (h.regs rfl)
  | sreIzy x => exact h.modifyAt (w (.inl (show (0x53#8 : Byte).toNat ∈ stores by decide))) e (fun _ _ => rfl)
  | nop54 x => exact h.locateOnly e
  | eorZpx x => exact h.readWith e (fun _ _ => rfl)
  | lsrZpx x => exact h.modifyAt (w (.inl (show (0x56#8 : Byte).toNat ∈ stores by decide))) e (fun _ _ => rfl)
  | sreZpx x => exact h.modifyAt (w (.inl (show (0x57#8 : Byte).toNat ∈ stores by decide))) e (fun _ _ => rfl)
  | cli => exact h.finish e (h.regs rfl)
  | eorAby x => exact h.readWith e (fun _ _ => rfl)
  | nop5A => exact h.finish e (h.regs rfl)
  | sreAby x => exact h.modifyAt (w (.inl (show (0x5B#8 : Byte).toNat ∈ stores by decide))) e (fun _ _ => rfl)
  | nop5C x => exact h.locateOnly e
  | eorAbx x => exact h.readWith e (fun _ _ => rfl)
  | lsrAbx x => exact h.modifyAt (w (.inl (show (0x5E#8 : Byte).toNat ∈ stores by decide))) e (fun _ _ => rfl)
  | sreAbx x => exact h.modifyAt (w (.inl (show (0x5F#8 : Byte).toNat ∈ stores by decide))) e (fun _ _ => rfl)
  | rts => exact h.finish e (h.trans (h.pullWord s) (h.regs rfl))
  | adcIzx x => exact h.readWith e (fun _ _ => rfl)
  | kil62 => exact h.finish e (h.regs rfl)
  | rraIzx x => exact h.modifyAt (w (.inl (show (0x63#8 : Byte).toNat ∈ stores by decide))) e (fun _ _ => rfl)
  | nop64 x => exact h.locateOnly e
  | adcZp x => exact h.readWith e (fun _ _ => rfl)
  | rorZp x => exact h.modifyAt (w (.inl (show (0x66#8 : Byte).toNat ∈ stores by decide))) e (fun _ _ => rfl)
  | rraZp x => exact h.modifyAt (w (.inl (show (0x67#8 : Byte).toNat ∈ stores by decide))) e (fun _ _ => rfl)
  | pla => exact h.finish e (h.trans (h.pull s) (h.regs rfl))
  | adcImm x => exact h.readWith e (fun _ _ => rfl)
  | rorAcc => exact h.finish e (h.regs rfl)
  | arr x => exact h.readWith e (fun _ _ => rfl)
  | jmpInd x => exact h.finish e (h.jumpIndirect _ _)
  | adcAbs x => exact h.readWith e (fun _ _ => rfl)
  | rorAbs x => exact h.modifyAt (w (.inl (show (0x6E#8 : Byte).toNat ∈ stores by decide))) e (fun _ _ => rfl)
  | rraAbs x => exact h.modifyAt (w (.inl (show (0x6F#8 : Byte).toNat ∈ stores by decide))) e (fun _ _ => rfl)
  | bvs x => exact h.branch e
  | adcIzy x => exact h.readWith e (fun _ _ => rfl)
  | kil72 => exact h.finish e (h.regs rfl)
  | rraIzy x => exact h.modifyAt (w (.inl (show (0x73#8 : Byte).toNat ∈ stores by decide))) e (fun _ _ => rfl)
  | nop74 x => exact h.locateOnly e
  | adcZpx x => exact h.readWith e (fun _ _ => rfl)
  | rorZpx x => exact h.modifyAt (w (.inl (show (0x76#8 : Byte).toNat ∈ stores by decide))) e (fun _ _ => rfl)
  | rraZpx x => exact h.modifyAt (w (.inl (show (0x77#8 : Byte).toNat ∈ stores by decide))) e (fun _ _ => rfl)
  | sei => exact h.finish e (h.regs rfl)
  | adcAby x => exact h.readWith e (fun _ _ => rfl)
  | nop7A => exact h.finish e (h.regs rfl)
  | rraAby x => exact h.modifyAt (w (.inl (show (0x7B#8 : Byte).toNat ∈ stores by decide))) e (fun _ _ => rfl)
  | nop7C x => exact h.locateOnly e
  | adcAbx x => exact h.readWith e (fun _ _ => rfl)
  | rorAbx x => exact h.modifyAt (w (.inl (show (0x7E#8 : Byte).toNat ∈ stores by decide))) e (fun _ _ => rfl)
  | rraAbx x => exact h.modifyAt (w (.inl (show (0x7F#8 : Byte).toNat ∈ stores by decide))) e (fun _ _ => rfl)
  | nop80 x => exact h.finish e (h.regs rfl)
  | staIzx x => exact h.storeTo (w (.inl (show (0x81#8 : Byte).toNat ∈ stores by decide))) e
  | nop82 x => exact h.finish e (h.regs rfl)
  | saxIzx x => exact h.storeTo (w (.inl (show (0x83#8 : Byte).toNat ∈ stores by decide))) e
  | styZp x => exact h.storeTo (w (.inl (show (0x84#8 : Byte).toNat ∈ stores by decide))) e
  | staZp x => exact h.storeTo (w (.inl (show (0x85#8 : Byte).toNat ∈ stores by decide))) e
  | stxZp x => exact h.storeTo (w (.inl (show (0x86#8 : Byte).toNat ∈ stores by decide))) e
  | saxZp x => exact h.storeTo (w (.inl (show (0x87#8 : Byte).toNat ∈ stores by decide))) e
  | dey => exact h.finish e (h.regs rfl)
  | nop89 x => exact h.finish e (h.regs rfl)
  | txa => exact h.finish e (h.regs rfl)
  | xaa x => cases e
  | styAbs x => exact h.storeTo (w (.inl (show (0x8C#8 : Byte).toNat ∈ stores by decide))) e
  | staAbs x => exact h.storeTo (w (.inl (show (0x8D#8 : Byte).toNat ∈ stores by decide))) e
  | stxAbs x => exact h.storeTo (w (.inl (show (0x8E#8 : Byte).toNat ∈ stores by decide))) e
  | saxAbs x => exact h.storeTo (w (.inl (show (0x8F#8 : Byte).toNat ∈ stores by decide))) e
  | bcc x => exact h.branch e
  | staIzy x => exact h.storeTo (w (.inl (show (0x91#8 : Byte).toNat ∈ stores by decide))) e
  | kil92 => exact h.finish e (h.regs rfl)
  | ahxIzy x => cases e
  | styZpx x => exact h.storeTo (w (.inl (show (0x94#8 : Byte).toNat ∈ stores by decide))) e
  | staZpx x => exact h.storeTo (w (.inl (show (0x95#8 : Byte).toNat ∈ stores by decide))) e
  | stxZpy x => exact h.storeTo (w (.inl (show (0x96#8 : Byte).toNat ∈ stores by decide))) e
  | saxZpy x => exact h.storeTo (w (.inl (show (0x97#8 : Byte).toNat ∈ stores by decide))) e
  | tya => exact h.finish e (h.regs rfl)
  | staAby x => exact h.storeTo (w (.inl (show (0x99#8 : Byte).toNat ∈ stores by decide))) e
  | txs => exact h.finish e (h.regs rfl)
  | tas x => cases e
  | shy x => cases e
  | staAbx x => exact h.storeTo (w (.inl (show (0x9D#8 : Byte).toNat ∈ stores by decide))) e
  | shx x => cases e
  | ahxAby x => cases e
  | ldyImm x => exact h.readWith e (fun _ _ => rfl)
  | ldaIzx x => exact h.readWith e (fun _ _ => rfl)
  | ldxImm x => exact h.readWith e (fun _ _ => rfl)
  | laxIzx x => exact h.readWith e (fun _ _ => rfl)
  | ldyZp x => exact h.readWith e (fun _ _ => rfl)
  | ldaZp x => exact h.readWith e (fun _ _ => rfl)
  | ldxZp x => exact h.readWith e (fun _ _ => rfl)
  | laxZp x => exact h.readWith e (fun _ _ => rfl)
  | tay => exact h.finish e (h.regs rfl)
  | ldaImm x => exact h.readWith e (fun _ _ => rfl)
  | tax => exact h.finish e (h.regs rfl)
  | lxa x => cases e
  | ldyAbs x => exact h.readWith e (fun _ _ => rfl)
  | ldaAbs x => exact h.readWith e (fun _ _ => rfl)
  | ldxAbs x => exact h.readWith e (fun _ _ => rfl)
  | laxAbs x => exact h.readWith e (fun _ _ => rfl)
  | bcs x => exact h.branch e
  | ldaIzy x => exact h.readWith e (fun _ _ => rfl)
  | kilB2 => exact h.finish e (h.regs rfl)
  | laxIzy x => exact h.readWith e (fun _ _ => rfl)
  | ldyZpx x => exact h.readWith e (fun _ _ => rfl)
  | ldaZpx x => exact h.readWith e (fun _ _ => rfl)
  | ldxZpy x => exact h.readWith e (fun _ _ => rfl)
  | laxZpy x => exact h.readWith e (fun _ _ => rfl)
  | clv => exact h.finish e (h.regs rfl)
  | ldaAby x => exact h.readWith e (fun _ _ => rfl)
  | tsx => exact h.finish e (h.regs rfl)
  | las x => cases e
  | ldyAbx x => exact h.readWith e (fun _ _ => rfl)
  | ldaAbx x => exact h.readWith e (fun _ _ => rfl)
  | ldxAby x => exact h.readWith e (fun _ _ => rfl)
  | laxAby x => exact h.readWith e (fun _ _ => rfl)
  | cpyImm x => exact h.readWith e (fun _ _ => rfl)
  | cmpIzx x => exact h.readWith e (fun _ _ => rfl)
  | nopC2 x => exact h.finish e (h.regs rfl)
  | dcpIzx x => exact h.modifyAt (w (.inl (show (0xC3#8 : Byte).toNat ∈ stores by decide))) e (fun _ _ => rfl)
  | cpyZp x => exact h.readWith e (fun _ _ => rfl)
  | cmpZp x => exact h.readWith e (fun _ _ => rfl)
  | decZp x => exact h.modifyAt (w (.inl (show (0xC6#8 : Byte).toNat ∈ stores by decide))) e (fun _ _ => rfl)
  | dcpZp x => exact h.modifyAt (w (.inl (show (0xC7#8 : Byte).toNat ∈ stores by decide))) e (fun _ _ => rfl)
  | iny => exact h.finish e (h.regs rfl)
  | cmpImm x => exact h.readWith e (fun _ _ => rfl)
  | dex => exact h.finish e (h.regs rfl)
  | axs x => exact h.readWith e (fun _ _ => rfl)
  | cpyAbs x => exact h.readWith e (fun _ _ => rfl)
  | cmpAbs x => exact h.readWith e (fun _ _ => rfl)
  | decAbs x => exact h.modifyAt (w (.inl (show (0xCE#8 : Byte).toNat ∈ stores by decide))) e (fun _ _ => rfl)
  | dcpAbs x => exact h.modifyAt (w (.inl (show (0xCF#8 : Byte).toNat ∈ stores by decide))) e (fun _ _ => rfl)
  | bne x => exact h.branch e
  | cmpIzy x => exact h.readWith e (fun _ _ => rfl)
  | kilD2 => exact h.finish e (h.regs rfl)
  | dcpIzy x => exact h.modifyAt (w (.inl (show (0xD3#8 : Byte).toNat ∈ stores by decide))) e (fun _ _ => rfl)
  | nopD4 x => exact h.locateOnly e
  | cmpZpx x => exact h.readWith e (fun _ _ => rfl)
  | decZpx x => exact h.modifyAt (w (.inl (show (0xD6#8 : Byte).toNat ∈ stores by decide))) e (fun _ _ => rfl)
  | dcpZpx x => exact h.modifyAt (w (.inl (show (0xD7#8 : Byte).toNat ∈ stores by decide))) e (fun _ _ => rfl)
  | cld => exact h.finish e (h.regs rfl)
  | cmpAby x => exact h.readWith e (fun _ _ => rfl)
  | nopDA => exact h.finish e (h.regs rfl)
  | dcpAby x => exact h.modifyAt (w (.inl (show (0xDB#8 : Byte).toNat ∈ stores by decide))) e (fun _ _ => rfl)
  | nopDC x => exact h.locateOnly e
  | cmpAbx x => exact h.readWith e (fun _ _ => rfl)
  | decAbx x => exact h.modifyAt (w (.inl (show (0xDE#8 : Byte).toNat ∈ stores by decide))) e (fun _ _ => rfl)
  | dcpAbx x => exact h.modifyAt (w (.inl (show (0xDF#8 : Byte).toNat ∈ stores by decide))) e (fun _ _ => rfl)
  | cpxImm x => exact h.readWith e (fun _ _ => rfl)
  | sbcIzx x => exact h.readWith e (fun _ _ => rfl)
  | nopE2 x => exact h.finish e (h.regs rfl)
  | iscIzx x => exact h.modifyAt (w (.inl (show (0xE3#8 : Byte).toNat ∈ stores by decide))) e (fun _ _ => rfl)
  | cpxZp x => exact h.readWith e (fun _ _ => rfl)
  | sbcZp x => exact h.readWith e (fun _ _ => rfl)
  | incZp x => exact h.modifyAt (w (.inl (show (0xE6#8 : Byte).toNat ∈ stores by decide))) e (fun _ _ => rfl)
  | iscZp x => exact h.modifyAt (w (.inl (show (0xE7#8 : Byte).toNat ∈ stores by decide))) e (fun _ _ => rfl)
  | inx => exact h.finish e (h.regs rfl)
  | sbcImm x => exact h.readWith e (fun _ _ => rfl)
  | nop => exact h.finish e (h.regs rfl)
  | sbcEB x => exact h.readWith e (fun _ _ => rfl)
  | cpxAbs x => exact h.readWith e (fun _ _ => rfl)
  | sbcAbs x => exact h.readWith e (fun _ _ => rfl)
  | incAbs x => exact h.modifyAt (w (.inl (show (0xEE#8 : Byte).toNat ∈ stores by decide))) e (fun _ _ => rfl)
  | iscAbs x => exact h.modifyAt (w (.inl (show (0xEF#8 : Byte).toNat ∈ stores by decide))) e (fun _ _ => rfl)
  | beq x => exact h.branch e
  | sbcIzy x => exact h.readWith e (fun _ _ => rfl)
  | kilF2 => exact h.finish e (h.regs rfl)
  | iscIzy x => exact h.modifyAt (w (.inl (show (0xF3#8 : Byte).toNat ∈ stores by decide))) e (fun _ _ => rfl)
  | nopF4 x => exact h.locateOnly e
  | sbcZpx x => exact h.readWith e (fun _ _ => rfl)
  | incZpx x => exact h.modifyAt (w (.inl (show (0xF6#8 : Byte).toNat ∈ stores by decide))) e (fun _ _ => rfl)
  | iscZpx x => exact h.modifyAt (w (.inl (show (0xF7#8 : Byte).toNat ∈ stores by decide))) e (fun _ _ => rfl)
  | sed => exact h.finish e (h.regs rfl)
  | sbcAby x => exact h.readWith e (fun _ _ => rfl)
  | nopFA => exact h.finish e (h.regs rfl)
  | iscAby x => exact h.modifyAt (w (.inl (show (0xFB#8 : Byte).toNat ∈ stores by decide))) e (fun _ _ => rfl)
  | nopFC x => exact h.locateOnly e
  | sbcAbx x => exact h.readWith e (fun _ _ => rfl)
  | incAbx x => exact h.modifyAt (w (.inl (show (0xFE#8 : Byte).toNat ∈ stores by decide))) e (fun _ _ => rfl)
  | iscAbx x => exact h.modifyAt (w (.inl (show (0xFF#8 : Byte).toNat ∈ stores by decide))) e (fun _ _ => rfl)

/-! The step of the CPU and of the DMA engine. -/

theorem ReadClosed.cpuStep (h : ReadClosed R) (w : WriteClosed R)
    (hn : ∀ s : State, R s { s with nmiPending := false }) {s t : State} (e : cpuStep s = .next t) : R s t := by
  unfold Machine.cpuStep at e
  have key : ∀ r : Result, (∀ u, r = .next u → R s u) →
      thenDo r (fun u => { u with cyclesRemaining := u.cyclesRemaining - 1 }) = .next t → R s t := by
    intro r hr e
    cases r with
    | next u =>
      injection e with e
      exact e ▸ h.trans (hr u rfl) (h.regs rfl)
    | fault f => cases e
    | refused f => cases e
  refine key _ ?_ e
  intro u hu
  split at hu
  · unfold startInstruction at hu
    split at hu
    · injection hu with hu
      exact hu ▸ h.trans (hn s) (h.interruptEntry w _ _ _ _)
    · split at hu
      · injection hu with hu
        exact hu ▸ h.interruptEntry w _ _ _ _
      · exact h.trans (h.fetchInstr s) (h.exec hu (fun _ => w))
  · injection hu with hu
    exact hu ▸ h.refl s

/-- The OAM write of a DMA cycle is the write to picture-unit register 4. -/
theorem dma_oamWrite (s : State) (x : Byte) : s.withPic (s.pic.writeReg 4#3 x) = busWrite s 0x2004#16 x := rfl

theorem ReadClosed.dmaStep (h : ReadClosed R) (w : WriteClosed R)
    (hd : ∀ (s : State) (b : Bool) (n : Nat) (x : Byte), R s { s with inDma := b, dmaCounter := n, dmaValue := x })
    (s : State) : R s (dmaStep s) := by
  have ht : R s (dmaTransfer s) := by
    unfold dmaTransfer
    split
    · exact h.refl s
    · split
      · exact h.trans (h.read s _) (hd _ _ _ _)
      · exact w s 0x2004#16 s.dmaValue
  unfold Machine.dmaStep
  dsimp only
  split
  · exact h.trans ht (hd _ _ _ _)
  · exact h.trans ht (hd _ _ _ _)

/-- The mapper's tick changes nothing (R571). -/
theorem mapperTick_eq (s : State) : mapperTick s = s := by
  have e : s.cart.map Cartridge.tick = s.cart := by cases s.cart <;> rfl
  unfold mapperTick
  rw [e]

theorem ReadClosed.apuStep (h : ReadClosed R) (h1 : ∀ s : State, R s { s with apu := s.apu.stepChannels })
    (h2 : ∀ (s : State) (b : Byte), R s { s with apu := s.apu.takeDmcByte b })
    (h3 : ∀ s : State, R s { s with apu := s.apu.appendSample }) (s : State) : R s (apuStep s) := by
  unfold Machine.apuStep
  dsimp only
  refine h.trans (h1 s) (h.trans ?_ (h3 _))
  unfold dmcFetch
  split
  · exact h.trans (h.read _ _) (h2 _ _)
  · exact h.refl _

/-- What a result continued by a change of the state answers. -/
theorem thenDo_next {r : Result} {f : State → State} {t : State} (e : thenDo r f = .next t) :
    ∃ u, r = .next u ∧ t = f u := by
  cases r with
  | next u =>
    injection e with e
    exact ⟨u, rfl, e.symm⟩
  | fault x => cases e
  | refused x => cases e

/-- A step answers a next state only with a cartridge; it is the picture unit's dot after the agents of the
processor cycle, or alone between two. -/
theorem step_next {s t : State} (e : step s = .next t) :
    s.cart ≠ none ∧
      ((s.masterCycle % 3 ≠ 0 ∧ t = endMasterCycle s) ∨
        (s.masterCycle % 3 = 0 ∧ s.inDma = true ∧ t = endMasterCycle (apuStep (dmaStep (beginProcessorCycle s)))) ∨
        (s.masterCycle % 3 = 0 ∧ s.inDma = false ∧
          ∃ u, cpuStep (beginProcessorCycle s) = .next u ∧ t = endMasterCycle (apuStep u))) := by
  unfold step coordinatorStep at e
  split at e
  · cases e
  · rename_i c hc
    refine ⟨(by rw [hc]; simp), ?_⟩
    obtain ⟨u, hu, rfl⟩ := thenDo_next e
    split at hu
    · right
      obtain ⟨v, hv, rfl⟩ := thenDo_next hu
      rw [mapperTick_eq]
      split at hv
      · injection hv with hv
        exact .inl ⟨‹_›, ‹_›, by rw [hv]⟩
      · rename_i h0 h1
        exact .inr ⟨h0, Bool.eq_false_iff.mpr h1, v, hv, rfl⟩
    · injection hu with hu
      exact .inl ⟨‹_›, by rw [hu]⟩

/-- One step of the machine: what it does at a processor cycle and between two, as a relation. -/
theorem ReadClosed.step (h : ReadClosed R) (w : WriteClosed R)
    (hn : ∀ s : State, R s { s with nmiPending := false }) (hd : ∀ s, R s (Machine.dmaStep s))
    (hb : ∀ s, R s (beginProcessorCycle s)) (ha : ∀ s, R s (Machine.apuStep s)) {s t : State}
    (e : Machine.step s = .next t) : ∃ u, R s u ∧ t = endMasterCycle u := by
  obtain ⟨-, ⟨-, rfl⟩ | ⟨-, -, rfl⟩ | ⟨-, -, u, hu, rfl⟩⟩ := step_next e
  · exact ⟨s, h.refl s, rfl⟩
  · exact ⟨_, h.trans (hb s) (h.trans (hd _) (ha _)), rfl⟩
  · exact ⟨_, h.trans (hb s) (h.trans (h.cpuStep w hn hu) (ha _)), rfl⟩

/-! A storing form is one bus write at its effective address. -/

theorem RegsOnly.trans {s t u : State} (h : RegsOnly s t) (g : RegsOnly t u) : RegsOnly s u := by
  unfold RegsOnly at *
  rw [g, h]

/-- What a storing form answers: the state after at most one read at the effective address and one write there of
the form's byte, but for the CPU's registers. -/
def StoresAt (i : Instr) (o : Operand) (s t : State) : Prop :=
  ∃ u, (u = s ∨ u = afterRead s (locate o s).ea) ∧
    RegsOnly (busWrite u (locate o s).ea
      (storedByte (opcodeOf i).toNat s (busPeek s (locate o s).ea))) t

theorem storesAt_storeTo {i : Instr} {op : Byte} {o : Operand} {x : Byte} {s t : State}
    (e : storeTo op o x s = .next t) (ho : opcodeOf i = op)
    (hx : x = storedByte op.toNat s (busPeek s (locate o s).ea)) : StoresAt i o s t := by
  subst ho
  injection e with e
  exact ⟨s, .inl rfl, by rw [← e, locate_state, ← hx]; rfl⟩

theorem storesAt_modifyAt {i : Instr} {op : Byte} {o : Operand} {f : Byte → Bool → Shifted}
    {g : Byte → State → State} {s t : State} (e : modifyAt op o f g s = .next t)
    (ho : opcodeOf i = op) (hf : ∀ v, (f v s.flagC).result = storedByte op.toNat s v)
    (hg : ∀ m u, RegsOnly u (g m u)) : StoresAt i o s t := by
  subst ho
  injection e with e
  refine ⟨afterRead s (locate o s).ea, .inr rfl, ?_⟩
  rw [← e, locate_state, ← hf, ← afterRead_flagC s (locate o s).ea]
  have h1 : ∀ (u : State) (c : Bool), RegsOnly u { u with flagC := c } := fun _ _ => rfl
  have h2 : ∀ (u : State) (n : Nat), RegsOnly u { u with cyclesRemaining := n } := fun _ _ => rfl
  exact ((h1 _ _).trans (hg _ _)).trans (h2 _ _)

/-! The byte each shift stores. -/

theorem aslStored (v : Byte) (c : Bool) : (aslByte v c).result = aslResult v c :=
  congrArg Shifted.result (aslByte_eq v c)

theorem lsrStored (v : Byte) (c : Bool) : (lsrByte v c).result = lsrResult v c :=
  congrArg Shifted.result (lsrByte_eq v c)

theorem rolStored (v : Byte) (c : Bool) : (rolByte v c).result = rolResult v c :=
  congrArg Shifted.result (rolByte_eq v c)

theorem rorStored (v : Byte) (c : Bool) : (rorByte v c).result = rorResult v c :=
  congrArg Shifted.result (rorByte_eq v c)

theorem incStored (v : Byte) (c : Bool) : (incByte v c).result = incResult v c :=
  congrArg Shifted.result (incByte_eq v c)

theorem decStored (v : Byte) (c : Bool) : (decByte v c).result = decResult v c :=
  congrArg Shifted.result (decByte_eq v c)

/-- Every storing form is one. -/
theorem exec_storesAt {i : Instr} {o : Operand} {s t : State} (e : exec i s = .next t)
    (h : storeOperand i = some o) : StoresAt i o s t := by
  cases i with
  | brk => cases h
  | oraIzx x => cases h
  | kil02 => cases h
  | sloIzx x => exact Option.some.inj h ▸ storesAt_modifyAt e rfl (fun v => aslStored v _) (fun _ _ => rfl)
  | nop04 x => cases h
  | oraZp x => cases h
  | aslZp x => exact Option.some.inj h ▸ storesAt_modifyAt e rfl (fun v => aslStored v _) (fun _ _ => rfl)
  | sloZp x => exact Option.some.inj h ▸ storesAt_modifyAt e rfl (fun v => aslStored v _) (fun _ _ => rfl)
  | php => cases h
  | oraImm x => cases h
  | aslAcc => cases h
  | anc0B x => cases h
  | nop0C x => cases h
  | oraAbs x => cases h
  | aslAbs x => exact Option.some.inj h ▸ storesAt_modifyAt e rfl (fun v => aslStored v _) (fun _ _ => rfl)
  | sloAbs x => exact Option.some.inj h ▸ storesAt_modifyAt e rfl (fun v => aslStored v _) (fun _ _ => rfl)
  | bpl x => cases h
  | oraIzy x => cases h
  | kil12 => cases h
  | sloIzy x => exact Option.some.inj h ▸ storesAt_modifyAt e rfl (fun v => aslStored v _) (fun _ _ => rfl)
  | nop14 x => cases h
  | oraZpx x => cases h
  | aslZpx x => exact Option.some.inj h ▸ storesAt_modifyAt e rfl (fun v => aslStored v _) (fun _ _ => rfl)
  | sloZpx x => exact Option.some.inj h ▸ storesAt_modifyAt e rfl (fun v => aslStored v _) (fun _ _ => rfl)
  | clc => cases h
  | oraAby x => cases h
  | nop1A => cases h
  | sloAby x => exact Option.some.inj h ▸ storesAt_modifyAt e rfl (fun v => aslStored v _) (fun _ _ => rfl)
  | nop1C x => cases h
  | oraAbx x => cases h
  | aslAbx x => exact Option.some.inj h ▸ storesAt_modifyAt e rfl (fun v => aslStored v _) (fun _ _ => rfl)
  | sloAbx x => exact Option.some.inj h ▸ storesAt_modifyAt e rfl (fun v => aslStored v _) (fun _ _ => rfl)
  | jsr x => cases h
  | andIzx x => cases h
  | kil22 => cases h
  | rlaIzx x => exact Option.some.inj h ▸ storesAt_modifyAt e rfl (fun v => rolStored v _) (fun _ _ => rfl)
  | bitZp x => cases h
  | andZp x => cases h
  | rolZp x => exact Option.some.inj h ▸ storesAt_modifyAt e rfl (fun v => rolStored v _) (fun _ _ => rfl)
  | rlaZp x => exact Option.some.inj h ▸ storesAt_modifyAt e rfl (fun v => rolStored v _) (fun _ _ => rfl)
  | plp => cases h
  | andImm x => cases h
  | rolAcc => cases h
  | anc2B x => cases h
  | bitAbs x => cases h
  | andAbs x => cases h
  | rolAbs x => exact Option.some.inj h ▸ storesAt_modifyAt e rfl (fun v => rolStored v _) (fun _ _ => rfl)
  | rlaAbs x => exact Option.some.inj h ▸ storesAt_modifyAt e rfl (fun v => rolStored v _) (fun _ _ => rfl)
  | bmi x => cases h
  | andIzy x => cases h
  | kil32 => cases h
  | rlaIzy x => exact Option.some.inj h ▸ storesAt_modifyAt e rfl (fun v => rolStored v _) (fun _ _ => rfl)
  | nop34 x => cases h
  | andZpx x => cases h
  | rolZpx x => exact Option.some.inj h ▸ storesAt_modifyAt e rfl (fun v => rolStored v _) (fun _ _ => rfl)
  | rlaZpx x => exact Option.some.inj h ▸ storesAt_modifyAt e rfl (fun v => rolStored v _) (fun _ _ => rfl)
  | sec => cases h
  | andAby x => cases h
  | nop3A => cases h
  | rlaAby x => exact Option.some.inj h ▸ storesAt_modifyAt e rfl (fun v => rolStored v _) (fun _ _ => rfl)
  | nop3C x => cases h
  | andAbx x => cases h
  | rolAbx x => exact Option.some.inj h ▸ storesAt_modifyAt e rfl (fun v => rolStored v _) (fun _ _ => rfl)
  | rlaAbx x => exact Option.some.inj h ▸ storesAt_modifyAt e rfl (fun v => rolStored v _) (fun _ _ => rfl)
  | rti => cases h
  | eorIzx x => cases h
  | kil42 => cases h
  | sreIzx x => exact Option.some.inj h ▸ storesAt_modifyAt e rfl (fun v => lsrStored v _) (fun _ _ => rfl)
  | nop44 x => cases h
  | eorZp x => cases h
  | lsrZp x => exact Option.some.inj h ▸ storesAt_modifyAt e rfl (fun v => lsrStored v _) (fun _ _ => rfl)
  | sreZp x => exact Option.some.inj h ▸ storesAt_modifyAt e rfl (fun v => lsrStored v _) (fun _ _ => rfl)
  | pha => cases h
  | eorImm x => cases h
  | lsrAcc => cases h
  | alr x => cases h
  | jmpAbs x => cases h
  | eorAbs x => cases h
  | lsrAbs x => exact Option.some.inj h ▸ storesAt_modifyAt e rfl (fun v => lsrStored v _) (fun _ _ => rfl)
  | sreAbs x => exact Option.some.inj h ▸ storesAt_modifyAt e rfl (fun v => lsrStored v _) (fun _ _ => rfl)
  | bvc x => cases h
  | eorIzy x => cases h
  | kil52 => cases h
  | sreIzy x => exact Option.some.inj h ▸ storesAt_modifyAt e rfl (fun v => lsrStored v _) (fun _ _ => rfl)
  | nop54 x => cases h
  | eorZpx x => cases h
  | lsrZpx x => exact Option.some.inj h ▸ storesAt_modifyAt e rfl (fun v => lsrStored v _) (fun _ _ => rfl)
  | sreZpx x => exact Option.some.inj h ▸ storesAt_modifyAt e rfl (fun v => lsrStored v _) (fun _ _ => rfl)
  | cli => cases h
  | eorAby x => cases h
  | nop5A => cases h
  | sreAby x => exact Option.some.inj h ▸ storesAt_modifyAt e rfl (fun v => lsrStored v _) (fun _ _ => rfl)
  | nop5C x => cases h
  | eorAbx x => cases h
  | lsrAbx x => exact Option.some.inj h ▸ storesAt_modifyAt e rfl (fun v => lsrStored v _) (fun _ _ => rfl)
  | sreAbx x => exact Option.some.inj h ▸ storesAt_modifyAt e rfl (fun v => lsrStored v _) (fun _ _ => rfl)
  | rts => cases h
  | adcIzx x => cases h
  | kil62 => cases h
  | rraIzx x => exact Option.some.inj h ▸ storesAt_modifyAt e rfl (fun v => rorStored v _) (fun _ _ => rfl)
  | nop64 x => cases h
  | adcZp x => cases h
  | rorZp x => exact Option.some.inj h ▸ storesAt_modifyAt e rfl (fun v => rorStored v _) (fun _ _ => rfl)
  | rraZp x => exact Option.some.inj h ▸ storesAt_modifyAt e rfl (fun v => rorStored v _) (fun _ _ => rfl)
  | pla => cases h
  | adcImm x => cases h
  | rorAcc => cases h
  | arr x => cases h
  | jmpInd x => cases h
  | adcAbs x => cases h
  | rorAbs x => exact Option.some.inj h ▸ storesAt_modifyAt e rfl (fun v => rorStored v _) (fun _ _ => rfl)
  | rraAbs x => exact Option.some.inj h ▸ storesAt_modifyAt e rfl (fun v => rorStored v _) (fun _ _ => rfl)
  | bvs x => cases h
  | adcIzy x => cases h
  | kil72 => cases h
  | rraIzy x => exact Option.some.inj h ▸ storesAt_modifyAt e rfl (fun v => rorStored v _) (fun _ _ => rfl)
  | nop74 x => cases h
  | adcZpx x => cases h
  | rorZpx x => exact Option.some.inj h ▸ storesAt_modifyAt e rfl (fun v => rorStored v _) (fun _ _ => rfl)
  | rraZpx x => exact Option.some.inj h ▸ storesAt_modifyAt e rfl (fun v => rorStored v _) (fun _ _ => rfl)
  | sei => cases h
  | adcAby x => cases h
  | nop7A => cases h
  | rraAby x => exact Option.some.inj h ▸ storesAt_modifyAt e rfl (fun v => rorStored v _) (fun _ _ => rfl)
  | nop7C x => cases h
  | adcAbx x => cases h
  | rorAbx x => exact Option.some.inj h ▸ storesAt_modifyAt e rfl (fun v => rorStored v _) (fun _ _ => rfl)
  | rraAbx x => exact Option.some.inj h ▸ storesAt_modifyAt e rfl (fun v => rorStored v _) (fun _ _ => rfl)
  | nop80 x => cases h
  | staIzx x => exact Option.some.inj h ▸ storesAt_storeTo e rfl rfl
  | nop82 x => cases h
  | saxIzx x => exact Option.some.inj h ▸ storesAt_storeTo e rfl rfl
  | styZp x => exact Option.some.inj h ▸ storesAt_storeTo e rfl rfl
  | staZp x => exact Option.some.inj h ▸ storesAt_storeTo e rfl rfl
  | stxZp x => exact Option.some.inj h ▸ storesAt_storeTo e rfl rfl
  | saxZp x => exact Option.some.inj h ▸ storesAt_storeTo e rfl rfl
  | dey => cases h
  | nop89 x => cases h
  | txa => cases h
  | xaa x => cases h
  | styAbs x => exact Option.some.inj h ▸ storesAt_storeTo e rfl rfl
  | staAbs x => exact Option.some.inj h ▸ storesAt_storeTo e rfl rfl
  | stxAbs x => exact Option.some.inj h ▸ storesAt_storeTo e rfl rfl
  | saxAbs x => exact Option.some.inj h ▸ storesAt_storeTo e rfl rfl
  | bcc x => cases h
  | staIzy x => exact Option.some.inj h ▸ storesAt_storeTo e rfl rfl
  | kil92 => cases h
  | ahxIzy x => cases h
  | styZpx x => exact Option.some.inj h ▸ storesAt_storeTo e rfl rfl
  | staZpx x => exact Option.some.inj h ▸ storesAt_storeTo e rfl rfl
  | stxZpy x => exact Option.some.inj h ▸ storesAt_storeTo e rfl rfl
  | saxZpy x => exact Option.some.inj h ▸ storesAt_storeTo e rfl rfl
  | tya => cases h
  | staAby x => exact Option.some.inj h ▸ storesAt_storeTo e rfl rfl
  | txs => cases h
  | tas x => cases h
  | shy x => cases h
  | staAbx x => exact Option.some.inj h ▸ storesAt_storeTo e rfl rfl
  | shx x => cases h
  | ahxAby x => cases h
  | ldyImm x => cases h
  | ldaIzx x => cases h
  | ldxImm x => cases h
  | laxIzx x => cases h
  | ldyZp x => cases h
  | ldaZp x => cases h
  | ldxZp x => cases h
  | laxZp x => cases h
  | tay => cases h
  | ldaImm x => cases h
  | tax => cases h
  | lxa x => cases h
  | ldyAbs x => cases h
  | ldaAbs x => cases h
  | ldxAbs x => cases h
  | laxAbs x => cases h
  | bcs x => cases h
  | ldaIzy x => cases h
  | kilB2 => cases h
  | laxIzy x => cases h
  | ldyZpx x => cases h
  | ldaZpx x => cases h
  | ldxZpy x => cases h
  | laxZpy x => cases h
  | clv => cases h
  | ldaAby x => cases h
  | tsx => cases h
  | las x => cases h
  | ldyAbx x => cases h
  | ldaAbx x => cases h
  | ldxAby x => cases h
  | laxAby x => cases h
  | cpyImm x => cases h
  | cmpIzx x => cases h
  | nopC2 x => cases h
  | dcpIzx x => exact Option.some.inj h ▸ storesAt_modifyAt e rfl (fun v => decStored v _) (fun _ _ => rfl)
  | cpyZp x => cases h
  | cmpZp x => cases h
  | decZp x => exact Option.some.inj h ▸ storesAt_modifyAt e rfl (fun v => decStored v _) (fun _ _ => rfl)
  | dcpZp x => exact Option.some.inj h ▸ storesAt_modifyAt e rfl (fun v => decStored v _) (fun _ _ => rfl)
  | iny => cases h
  | cmpImm x => cases h
  | dex => cases h
  | axs x => cases h
  | cpyAbs x => cases h
  | cmpAbs x => cases h
  | decAbs x => exact Option.some.inj h ▸ storesAt_modifyAt e rfl (fun v => decStored v _) (fun _ _ => rfl)
  | dcpAbs x => exact Option.some.inj h ▸ storesAt_modifyAt e rfl (fun v => decStored v _) (fun _ _ => rfl)
  | bne x => cases h
  | cmpIzy x => cases h
  | kilD2 => cases h
  | dcpIzy x => exact Option.some.inj h ▸ storesAt_modifyAt e rfl (fun v => decStored v _) (fun _ _ => rfl)
  | nopD4 x => cases h
  | cmpZpx x => cases h
  | decZpx x => exact Option.some.inj h ▸ storesAt_modifyAt e rfl (fun v => decStored v _) (fun _ _ => rfl)
  | dcpZpx x => exact Option.some.inj h ▸ storesAt_modifyAt e rfl (fun v => decStored v _) (fun _ _ => rfl)
  | cld => cases h
  | cmpAby x => cases h
  | nopDA => cases h
  | dcpAby x => exact Option.some.inj h ▸ storesAt_modifyAt e rfl (fun v => decStored v _) (fun _ _ => rfl)
  | nopDC x => cases h
  | cmpAbx x => cases h
  | decAbx x => exact Option.some.inj h ▸ storesAt_modifyAt e rfl (fun v => decStored v _) (fun _ _ => rfl)
  | dcpAbx x => exact Option.some.inj h ▸ storesAt_modifyAt e rfl (fun v => decStored v _) (fun _ _ => rfl)
  | cpxImm x => cases h
  | sbcIzx x => cases h
  | nopE2 x => cases h
  | iscIzx x => exact Option.some.inj h ▸ storesAt_modifyAt e rfl (fun v => incStored v _) (fun _ _ => rfl)
  | cpxZp x => cases h
  | sbcZp x => cases h
  | incZp x => exact Option.some.inj h ▸ storesAt_modifyAt e rfl (fun v => incStored v _) (fun _ _ => rfl)
  | iscZp x => exact Option.some.inj h ▸ storesAt_modifyAt e rfl (fun v => incStored v _) (fun _ _ => rfl)
  | inx => cases h
  | sbcImm x => cases h
  | nop => cases h
  | sbcEB x => cases h
  | cpxAbs x => cases h
  | sbcAbs x => cases h
  | incAbs x => exact Option.some.inj h ▸ storesAt_modifyAt e rfl (fun v => incStored v _) (fun _ _ => rfl)
  | iscAbs x => exact Option.some.inj h ▸ storesAt_modifyAt e rfl (fun v => incStored v _) (fun _ _ => rfl)
  | beq x => cases h
  | sbcIzy x => cases h
  | kilF2 => cases h
  | iscIzy x => exact Option.some.inj h ▸ storesAt_modifyAt e rfl (fun v => incStored v _) (fun _ _ => rfl)
  | nopF4 x => cases h
  | sbcZpx x => cases h
  | incZpx x => exact Option.some.inj h ▸ storesAt_modifyAt e rfl (fun v => incStored v _) (fun _ _ => rfl)
  | iscZpx x => exact Option.some.inj h ▸ storesAt_modifyAt e rfl (fun v => incStored v _) (fun _ _ => rfl)
  | sed => cases h
  | sbcAby x => cases h
  | nopFA => cases h
  | iscAby x => exact Option.some.inj h ▸ storesAt_modifyAt e rfl (fun v => incStored v _) (fun _ _ => rfl)
  | nopFC x => cases h
  | sbcAbx x => cases h
  | incAbx x => exact Option.some.inj h ▸ storesAt_modifyAt e rfl (fun v => incStored v _) (fun _ _ => rfl)
  | iscAbx x => exact Option.some.inj h ▸ storesAt_modifyAt e rfl (fun v => incStored v _) (fun _ _ => rfl)

end Sys2Proof.Machine
end

