-- ==== Sys2Proof/Laws/Entry.lean ====
section
/-! SUPPORT. Taking an interrupt and returning from one, in the words of Safety.lean. -/

namespace Sys2Proof.Machine

/-- Two bytes pushed as numbers. -/
theorem pushWord_law (w : Word) (s : State) : pushWord w s = pushPair w.toNat s := by
  have hl : loByte w = BitVec.ofNat 8 w.toNat := BitVec.eq_of_toNat_eq (by simp)
  have hh : hiByte w = BitVec.ofNat 8 (w.toNat / 256) := BitVec.eq_of_toNat_eq (by
    have := w.isLt
    simp only [hiByte_toNat, BitVec.toNat_ofNat]; omega)
  have e : s.sp - 1#8 - 1#8 = s.sp - 2#8 := byte_sub_sub s.sp 1 1
  have h1 : ∀ sp : Byte, (stackAt sp).toNat < 0x2000 := fun sp => by
    have := sp.isLt
    rw [stackAt_toNat]; omega
  simp only [pushWord, push_eq, pushPair, hl, hh, busWrite_ram (h1 _), e]

/-- A value pulled as a pair of bytes. -/
theorem wordOf_eq (lo hi : Byte) : wordOf lo hi = BitVec.ofNat 16 (lo.toNat + 256 * hi.toNat) := by
  have := lo.isLt
  have := hi.isLt
  apply word_eq
  rw [wordOf_toNat, BitVec.toNat_ofNat]; omega

/-- Two reads of memory whose reads have no side effect. -/
theorem busReadWord_quiet {s : State} {lo hi : Word} (h1 : ¬ ReadEffectAddress lo) (h2 : ¬ ReadEffectAddress hi) :
    busReadWord s lo hi = (pairAt s lo hi, s) := by
  simp only [busReadWord, busRead, afterRead_of_not_effect h1, afterRead_of_not_effect h2, wordOf_eq, pairAt]

/-- The three bytes the entry sequence pushes, as work RAM. -/
theorem pushed_ram (ret : Nat) (b : Byte) (s : State) :
    busWrite (pushPair ret s) (stackAt (s.sp - 2#8)) b =
      { s with
        ram :=
          Memory.write (Memory.write (Memory.write s.ram (0x100 + s.sp.toNat) (BitVec.ofNat 8 (ret / 256)))
            (0x100 + (s.sp - 1#8).toNat) (BitVec.ofNat 8 ret)) (0x100 + (s.sp - 2#8).toNat) b
        sp := s.sp - 2#8 } := by
  have h1 : ∀ sp : Byte, (stackAt sp).toNat < 0x2000 := fun sp => by
    have := sp.isLt
    rw [stackAt_toNat]; omega
  have h2 : ∀ sp : Byte, (stackAt sp).toNat % 0x800 = 0x100 + sp.toNat := fun sp => by
    have := sp.isLt
    rw [stackAt_toNat]; omega
  simp only [pushPair, busWrite_ram (h1 _), h2]

/-- The entry sequence (R306), for a vector in the program area. -/
theorem interruptEntry_law (vector : Word) (b : Bool) (ret : Word) (s : State)
    (h1 : 0x8000 ≤ vector.toNat) (h2 : vector.toNat < 0xFFFF) :
    interruptEntry vector b ret s = { entryLaw vector ret.toNat b s with cyclesRemaining := 7 } := by
  have hv : (vector + 1#16).toNat = vector.toNat + 1 := by
    rw [BitVec.toNat_add]; simp only [BitVec.toNat_ofNat]; omega
  have p1 : PlainAddress vector := .inr (by omega)
  have p2 : PlainAddress (vector + 1#16) := .inr (by omega)
  have hi1 : ∀ t u : State, t.cart = u.cart → busPeek t vector = busPeek u vector := by
    intro t u h
    have e1 : ¬ vector.toNat < 0x2000 := by omega
    have e2 : ¬ vector.toNat < 0x4000 := by omega
    have e3 : ¬ vector.toNat < 0x4020 := by omega
    simp [busPeek, e1, e2, e3, h]
  have hi2 : ∀ t u : State, t.cart = u.cart → busPeek t (vector + 1#16) = busPeek u (vector + 1#16) := by
    intro t u h
    have e1 : ¬ (vector + 1#16).toNat < 0x2000 := by omega
    have e2 : ¬ (vector + 1#16).toNat < 0x4000 := by omega
    have e3 : ¬ (vector + 1#16).toNat < 0x4020 := by omega
    simp only [busPeek, e1, e2, e3, h, if_false]
  have sp1 : (pushPair ret.toNat s).sp = s.sp - 2#8 := rfl
  have e3 : s.sp - 2#8 - 1#8 = s.sp - 3#8 := byte_sub_sub s.sp 2 1
  have hst : statusByte b (pushPair ret.toNat s) = statusByte b s := by
    simp only [statusByte, pushPair, busWrite_flagN, busWrite_flagV, busWrite_flagD, busWrite_flagI,
      busWrite_flagZ, busWrite_flagC]
  unfold interruptEntry
  simp only [busReadWord_quiet p1.not_effect p2.not_effect, pushWord_law, push_eq, sp1, packP_eq, hst, entryCycles,
    entryLaw, e3, pushed_ram]
  simp only [pairAt]
  rw [hi1 _ s, hi2 _ s] <;> rfl

/-- NMI service (R304). -/
theorem serviceNmi_law (s : State) :
    serviceNmi s =
      { entryLaw 0xFFFA#16 s.pc.toNat false { s with nmiPending := false } with cyclesRemaining := 7 } :=
  interruptEntry_law _ _ _ _ (by decide) (by decide)

/-- IRQ service (R305). -/
theorem serviceIrq_law (s : State) :
    serviceIrq s = { entryLaw 0xFFFE#16 s.pc.toNat false s with cyclesRemaining := 7 } :=
  interruptEntry_law _ _ _ _ (by decide) (by decide)

/-- The return from an interrupt (R205). -/
theorem interruptReturn_law (s : State) :
    interruptReturn s =
      loadStatus (busPeek s (stackAt (s.sp + 1#8)))
        { s with
          sp := s.sp + 3#8
          pc := pairAt s (stackAt (s.sp + 2#8)) (stackAt (s.sp + 3#8)) } := by
  have e2 : s.sp + 1#8 + 1#8 = s.sp + 2#8 := byte_add_add s.sp 1 1
  have e3 : s.sp + 1#8 + 2#8 = s.sp + 3#8 := byte_add_add s.sp 1 2
  have hp : ∀ p : Byte, ∀ a : Byte,
      busPeek (unpackP p { s with sp := s.sp + 1#8 }) (stackAt a) = busPeek s (stackAt a) :=
    fun p a => busPeek_congr (stackAt_plain a) rfl rfl
  simp only [interruptReturn, pull_eq, pullWord_eq, unpackP_sp, e2, e3, hp, wordOf_eq, pairAt, ← unpackP_eq]
  rfl

end Sys2Proof.Machine
end

