-- ==== Sys2Proof/Laws/Picture.lean ====
section
/-! SUPPORT. What the work of one dot of the picture unit leaves alone. -/

namespace Sys2Proof.Machine

/-- The cartridge of `d` is that of `c` but for the scanline counter of variant D. -/
def SameButCounter (c d : Option Cartridge) : Prop :=
  ∃ regs : Cartridge → MapperRegs, d = c.map (fun x => { x with regs := regs x }) ∧
    ∀ x, regs x = x.regs ∨ ∃ r n reload irq a12, x.regs = .variantD r ∧
      regs x = .variantD { r with irqCounter := n, irqReload := reload, mapperIrq := irq, lastA12 := a12 }

theorem SameButCounter.refl (c : Option Cartridge) : SameButCounter c c :=
  ⟨fun x => x.regs, by cases c <;> rfl, fun _ => .inl rfl⟩

theorem SameButCounter.trans {c d e : Option Cartridge} (h1 : SameButCounter c d) (h2 : SameButCounter d e) :
    SameButCounter c e := by
  obtain ⟨f, rfl, hf⟩ := h1
  obtain ⟨g, rfl, hg⟩ := h2
  refine ⟨fun x => g { x with regs := f x }, by cases c <;> rfl, fun x => ?_⟩
  rcases hg { x with regs := f x } with h | ⟨r, n, re, irq, a12, e1, e2⟩
  · rcases hf x with h' | h'
    · exact .inl (h.trans h')
    · right
      obtain ⟨r, n, re, irq, a12, e1, e2⟩ := h'
      exact ⟨r, n, re, irq, a12, e1, h.trans e2⟩
  · right
    rcases hf x with h' | ⟨r', n', re', irq', a12', e1', e2'⟩
    · exact ⟨r, n, re, irq, a12, h'.symm.trans e1, e2⟩
    · have e1'' : f x = .variantD r := e1
      rw [e2'] at e1''
      injection e1'' with e3
      refine ⟨r', n, re, irq, a12, e1', ?_⟩
      exact e2.trans (by rw [← e3])

/-- Clocking the counter changes only the counter of variant D. -/
theorem clockA12_cases (m : MapperRegs) (a : BitVec 14) :
    m.clockA12 a = m ∨ ∃ r n reload irq a12, m = .variantD r ∧
      m.clockA12 a = .variantD
        { r with irqCounter := n, irqReload := reload, mapperIrq := irq, lastA12 := a12 } := by
  cases m with
  | variantD r =>
    right
    refine ⟨r, (r.clockA12 a).irqCounter, (r.clockA12 a).irqReload, (r.clockA12 a).mapperIrq,
      (r.clockA12 a).lastA12, rfl, ?_⟩
    show MapperRegs.variantD _ = _
    congr 1
    unfold RegsD.clockA12
    by_cases h : (a.getLsbD 12 && !r.lastA12) = true
    · simp only [h, if_true]
    · simp only [h]; rfl
  | _ => left; rfl

/-- A picture-bus read changes the cartridge at most by clocking the counter (R524). -/
theorem picRead_counter (c : Option Cartridge) (a : BitVec 14) : SameButCounter c (picRead c a).2 := by
  refine ⟨fun x => if a.toNat < 0x2000 then x.regs.clockA12 a else x.regs, ?_, fun x => ?_⟩
  · cases c
    · rfl
    · simp only [picRead, Cartridge.picRead, Option.map]
      split <;> rfl
  · dsimp only
    split
    · exact clockA12_cases _ _
    · exact .inl rfl

/-- The parts of the picture unit that no fetch, pixel or sprite evaluation changes, and the two sprite
flags, which they only raise. -/
structure Pic.Keeps (q r : Pic) : Prop where
  dot : r.ppu.dot = q.ppu.dot
  scanline : r.ppu.scanline = q.ppu.scanline
  oddFrame : r.ppu.oddFrame = q.ppu.oddFrame
  vblank : r.ppu.vblank = q.ppu.vblank
  nmiPending : r.nmiPending = q.nmiPending
  spriteZeroHit : q.ppu.spriteZeroHit = true → r.ppu.spriteZeroHit = true
  spriteOverflow : q.ppu.spriteOverflow = true → r.ppu.spriteOverflow = true
  cart : SameButCounter q.cart r.cart

theorem Pic.Keeps.refl (q : Pic) : q.Keeps q := ⟨rfl, rfl, rfl, rfl, rfl, id, id, .refl _⟩

theorem Pic.Keeps.trans {q r t : Pic} (h : q.Keeps r) (g : r.Keeps t) : q.Keeps t :=
  ⟨g.dot.trans h.dot, g.scanline.trans h.scanline, g.oddFrame.trans h.oddFrame, g.vblank.trans h.vblank,
    g.nmiPending.trans h.nmiPending, fun e => g.spriteZeroHit (h.spriteZeroHit e),
    fun e => g.spriteOverflow (h.spriteOverflow e), h.cart.trans g.cart⟩

theorem Pic.busRead_keeps (q : Pic) (a : BitVec 14) : q.Keeps (q.busRead a).2 :=
  ⟨rfl, rfl, rfl, rfl, rfl, id, id, picRead_counter _ _⟩

@[simp] theorem Pic.busRead_ppu (q : Pic) (a : BitVec 14) : (q.busRead a).2.ppu = q.ppu := rfl

theorem Pic.fetchTile_keeps (q : Pic) : q.Keeps q.fetchTile :=
  ⟨rfl, rfl, rfl, rfl, rfl, id, id,
    (((picRead_counter _ _).trans (picRead_counter _ _)).trans (picRead_counter _ _)).trans (picRead_counter _ _)⟩

theorem Pic.fetchAndIncX_keeps (q : Pic) : q.Keeps q.fetchAndIncX :=
  ⟨rfl, rfl, rfl, rfl, rfl, id, id, q.fetchTile_keeps.cart⟩

theorem Pic.produceDot_keeps (q : Pic) : q.Keeps { q with ppu := q.ppu.produceDot } :=
  ⟨rfl, rfl, rfl, rfl, rfl, fun e => by simp [Ppu.produceDot, e], id, .refl _⟩

theorem Pic.selectSprite_keeps (q : Pic) (n row : Nat) : q.Keeps (q.selectSprite n row) :=
  ⟨rfl, rfl, rfl, rfl, rfl, id, id, (picRead_counter _ _).trans (picRead_counter _ _)⟩

theorem Pic.scanSprites_keeps (ns : List Nat) (q : Pic) : q.Keeps (Pic.scanSprites ns q) := by
  induction ns generalizing q with
  | nil => exact .refl q
  | cons n ns ih =>
    unfold Pic.scanSprites
    dsimp only
    split_ifs
    · exact ⟨rfl, rfl, rfl, rfl, rfl, id, fun _ => rfl, .refl _⟩
    · exact (q.selectSprite_keeps _ _).trans (ih _)
    · exact ih _

theorem Pic.evaluateSprites_keeps (q : Pic) : q.Keeps q.evaluateSprites := by
  unfold Pic.evaluateSprites
  dsimp only
  split_ifs
  · exact (Pic.scanSprites_keeps _ _).trans (Pic.busRead_keeps _ _)
  · exact Pic.scanSprites_keeps _ _

theorem Pic.clearSprites_keeps (q : Pic) : q.Keeps q.clearSprites := ⟨rfl, rfl, rfl, rfl, rfl, id, id, .refl _⟩

theorem Pic.setV_keeps (q : Pic) (v : BitVec 15) : q.Keeps { q with ppu := { q.ppu with v := v } } :=
  ⟨rfl, rfl, rfl, rfl, rfl, id, id, .refl _⟩

theorem Pic.visibleDot_keeps (q : Pic) : q.Keeps q.visibleDot := by
  unfold Pic.visibleDot
  dsimp only
  split_ifs
  · exact q.produceDot_keeps.trans (Pic.fetchAndIncX_keeps _)
  · exact q.produceDot_keeps
  · exact q.setV_keeps _
  · exact .refl q
  · exact q.setV_keeps _
  · exact .refl q
  · exact q.clearSprites_keeps.trans (Pic.evaluateSprites_keeps _)
  · exact q.clearSprites_keeps
  · exact q.fetchAndIncX_keeps
  · exact .refl q
  · exact .refl q

/-- The pre-render line, but for its dot 1. -/
theorem Pic.preRenderDot_keeps (q : Pic) (h : q.ppu.dot ≠ 1) : q.Keeps q.preRenderDot := by
  unfold Pic.preRenderDot
  dsimp only
  rw [if_neg h]
  split_ifs
  · exact q.setV_keeps _
  · exact .refl q
  · exact q.clearSprites_keeps.trans (Pic.busRead_keeps _ _)
  · exact q.clearSprites_keeps
  · exact q.setV_keeps _
  · exact .refl q
  · exact q.fetchAndIncX_keeps
  · exact .refl q
  · exact .refl q

/-- The work of a dot that neither starts nor ends the vertical blank. -/
theorem Pic.dotWork_keeps (q : Pic) (h1 : ¬ (q.ppu.scanline = 241 ∧ q.ppu.dot = 1))
    (h2 : ¬ (q.ppu.scanline = 261 ∧ q.ppu.dot = 1)) : q.Keeps q.dotWork := by
  unfold Pic.dotWork
  split_ifs with a b c d
  · exact q.visibleDot_keeps
  · exact absurd ⟨b, c⟩ h1
  · exact .refl q
  · exact q.preRenderDot_keeps (fun e => h2 ⟨d, e⟩)
  · exact .refl q

theorem Pic.scanSprites_frameBuffer (ns : List Nat) (q : Pic) :
    (Pic.scanSprites ns q).ppu.frameBuffer = q.ppu.frameBuffer := by
  induction ns generalizing q with
  | nil => rfl
  | cons n ns ih =>
    unfold Pic.scanSprites
    dsimp only
    split_ifs
    · rfl
    · exact (ih _).trans rfl
    · exact ih _

theorem Pic.evaluateSprites_frameBuffer (q : Pic) : q.evaluateSprites.ppu.frameBuffer = q.ppu.frameBuffer := by
  unfold Pic.evaluateSprites
  dsimp only
  split_ifs <;> exact Pic.scanSprites_frameBuffer _ _

/-- Only the production of a pixel, at a visible dot, touches the frame buffer (R404). -/
theorem Pic.dotWork_frameBuffer (q : Pic) :
    q.dotWork.ppu.frameBuffer =
      if q.ppu.scanline < 240 ∧ q.ppu.dot < 256 then q.ppu.produceDot.frameBuffer else q.ppu.frameBuffer := by
  unfold Pic.dotWork
  split_ifs with a b
  · unfold Pic.visibleDot
    dsimp only
    rw [if_pos b.2]
    split_ifs <;> rfl
  · unfold Pic.visibleDot
    dsimp only
    rw [if_neg fun e => b ⟨a, e⟩]
    split_ifs <;> first | rfl | exact Pic.evaluateSprites_frameBuffer _
  all_goals first | omega | rfl | skip
  unfold Pic.preRenderDot
  dsimp only
  split_ifs <;> rfl

/-- The dot that starts the vertical blank. -/
theorem Pic.dotWork_start (q : Pic) (h : q.ppu.scanline = 241 ∧ q.ppu.dot = 1) : q.dotWork = q.vblankStart := by
  unfold Pic.dotWork
  rw [if_neg (by omega), if_pos h.1, if_pos h.2]

/-- The dot that ends it. -/
theorem Pic.dotWork_clear (q : Pic) (h : q.ppu.scanline = 261 ∧ q.ppu.dot = 1) :
    q.dotWork =
      { q with ppu := { q.ppu with vblank := false, spriteZeroHit := false, spriteOverflow := false } } := by
  unfold Pic.dotWork
  rw [if_neg (by omega), if_neg (by omega), if_pos h.1]
  unfold Pic.preRenderDot
  rw [if_pos h.2]

/-- No dot's work moves the position. -/
theorem Pic.dotWork_position (q : Pic) :
    q.dotWork.ppu.dot = q.ppu.dot ∧ q.dotWork.ppu.scanline = q.ppu.scanline := by
  by_cases h1 : q.ppu.scanline = 241 ∧ q.ppu.dot = 1
  · rw [q.dotWork_start h1]; exact ⟨rfl, rfl⟩
  · by_cases h2 : q.ppu.scanline = 261 ∧ q.ppu.dot = 1
    · rw [q.dotWork_clear h2]; exact ⟨rfl, rfl⟩
    · exact ⟨(q.dotWork_keeps h1 h2).dot, (q.dotWork_keeps h1 h2).scanline⟩

/-- A step of the picture unit changes the cartridge at most by clocking the counter, and never clears the
NMI latch. -/
theorem Pic.step_cart (q : Pic) :
    SameButCounter q.cart q.step.cart ∧ (q.nmiPending = true → q.step.nmiPending = true) := by
  show SameButCounter q.cart q.dotWork.cart ∧ (q.nmiPending = true → q.dotWork.nmiPending = true)
  by_cases h1 : q.ppu.scanline = 241 ∧ q.ppu.dot = 1
  · rw [q.dotWork_start h1]; exact ⟨.refl _, fun e => by simp [Pic.vblankStart, e]⟩
  · by_cases h2 : q.ppu.scanline = 261 ∧ q.ppu.dot = 1
    · rw [q.dotWork_clear h2]; exact ⟨.refl _, id⟩
    · exact ⟨(q.dotWork_keeps h1 h2).cart, fun e => (q.dotWork_keeps h1 h2).nmiPending.trans e⟩

/-- The position after a step (R415, R416). -/
theorem Ppu.advancePosition_eq (p : Ppu) :
    (p.advancePosition.dot, p.advancePosition.scanline) =
      (if p.dot = 340 ∨ (p.dot = 339 ∧ p.scanline = 261 ∧ p.oddFrame = true) then
        (0, if p.scanline = 261 then 0 else p.scanline + 1)
       else (p.dot + 1, p.scanline)) := by
  have e1 : p.dot + 1 = 341 ↔ p.dot = 340 := by omega
  have e2 : p.dot + 1 = 340 ↔ p.dot = 339 := by omega
  have e3 : p.scanline + 1 = 262 ↔ p.scanline = 261 := by omega
  simp only [Ppu.advancePosition, e1, e2, e3]
  split_ifs <;> rfl

/-! What a CPU access to the picture unit and the cartridge leaves alone. -/

theorem Ppu.advance_eq (p : Ppu) :
    p.advance = { p with v := if p.renderingLine then incX (incY p.v) else p.v + p.vramIncrement } := by
  unfold Ppu.advance
  split <;> rfl

theorem busPeek_window {s : State} {a : Word} (h1 : 0x2000 ≤ a.toNat) (h2 : a.toNat < 0x4000) :
    busPeek s a = s.pic.peekReg (ppuRegister a) := by
  unfold busPeek
  rw [if_neg (by omega), if_pos h2]

theorem afterRead_window {s : State} {a : Word} (h1 : 0x2000 ≤ a.toNat) (h2 : a.toNat < 0x4000) :
    afterRead s a = s.withPic (s.pic.afterRead (ppuRegister a)) := by
  unfold afterRead
  rw [if_neg (by omega), if_pos h2]

theorem busWrite_window {s : State} {a : Word} {x : Byte} (h1 : 0x2000 ≤ a.toNat) (h2 : a.toNat < 0x4000) :
    busWrite s a x = s.withPic (s.pic.writeReg (ppuRegister a) x) := by
  unfold busWrite
  rw [if_neg (by omega), if_pos h2]

/-- A register read: what of the picture unit's memories and position it keeps. -/
theorem Pic.afterRead_keeps (q : Pic) (r : BitVec 3) :
    SameButCounter q.cart (q.afterRead r).cart ∧ (q.afterRead r).nmiPending = q.nmiPending ∧
      ∃ v w vb rb, (q.afterRead r).ppu = { q.ppu with v := v, w := w, vblank := vb, readBuffer := rb } := by
  unfold Pic.afterRead
  split_ifs
  · exact ⟨.refl _, rfl, _, _, _, _, rfl⟩
  · refine ⟨picRead_counter _ _, rfl, q.ppu.advance.v, q.ppu.w, q.ppu.vblank, (picRead q.cart q.ppu.busAddr).1, ?_⟩
    rw [Ppu.advance_eq]
  · exact ⟨.refl _, rfl, _, _, _, _, rfl⟩

/-- A bus read: the cartridge changes at most by the counter, the picture unit in `v`, `w`, `vblank` and
the read buffer (R61). -/
theorem afterRead_keeps (s : State) (a : Word) :
    SameButCounter s.cart (afterRead s a).cart ∧
      ∃ v w vb rb, (afterRead s a).ppu = { s.ppu with v := v, w := w, vblank := vb, readBuffer := rb } := by
  unfold afterRead
  split_ifs
  · exact ⟨.refl _, _, _, _, _, rfl⟩
  · obtain ⟨h, -, g⟩ := s.pic.afterRead_keeps (ppuRegister a)
    exact ⟨h, g⟩
  · exact ⟨.refl _, _, _, _, _, rfl⟩
  · exact ⟨.refl _, _, _, _, _, rfl⟩
  · exact ⟨.refl _, _, _, _, _, rfl⟩
  · exact ⟨.refl _, _, _, _, _, rfl⟩

/-- The image, header, size and variant of a cartridge. -/
def Cartridge.fixedPart (c : Cartridge) : Header × Memory × Nat × Nat := (c.header, c.image, c.size, c.regs.variant)

theorem SameButCounter.fixedPart {c d : Option Cartridge} (h : SameButCounter c d) :
    d.map Cartridge.fixedPart = c.map Cartridge.fixedPart := by
  obtain ⟨f, rfl, hf⟩ := h
  cases c with
  | none => rfl
  | some c =>
    have e : (f c).variant = c.regs.variant := by
      rcases hf c with h | ⟨r, n, re, irq, a12, e1, e2⟩
      · rw [h]
      · rw [e2, e1]; rfl
    simp [Cartridge.fixedPart, e]

theorem SameButCounter.rams {c d : Option Cartridge} (h : SameButCounter c d) :
    d.map (fun c => (c.prgRam, c.chrRam, c.ntRam)) = c.map (fun c => (c.prgRam, c.chrRam, c.ntRam)) := by
  obtain ⟨f, rfl, -⟩ := h
  cases c <;> rfl

/-- The program bytes a cartridge shows do not depend on the scanline counter. -/
theorem SameButCounter.cartRead {c d : Option Cartridge} (h : SameButCounter c d) (a : Word) :
    cartRead d a = cartRead c a := by
  obtain ⟨f, rfl, hf⟩ := h
  cases c with
  | none => rfl
  | some c =>
    rcases hf c with h | ⟨r, n, re, irq, a12, e1, e2⟩
    · simp [Machine.cartRead, h]
    · show Cartridge.cpuRead _ a = c.cpuRead a
      simp only [Cartridge.cpuRead, Cartridge.prgOffset, Cartridge.prgRom, e1, e2]
      rfl

theorem MapperRegs.write_variant (m : MapperRegs) (a : Word) (x : Byte) : (m.write a x).variant = m.variant := by
  cases m <;> rfl

theorem cartWrite_fixedPart (c : Option Cartridge) (a : Word) (x : Byte) :
    (cartWrite c a x).map Cartridge.fixedPart = c.map Cartridge.fixedPart := by
  cases c with
  | none => rfl
  | some c =>
    show some (c.cpuWrite a x).fixedPart = some c.fixedPart
    unfold Cartridge.cpuWrite
    split_ifs
    · rfl
    · rfl
    · rfl
    · simp [Cartridge.fixedPart, MapperRegs.write_variant]

theorem picWrite_fixedPart (c : Option Cartridge) (a : BitVec 14) (x : Byte) :
    (picWrite c a x).map Cartridge.fixedPart = c.map Cartridge.fixedPart := by
  cases c with
  | none => rfl
  | some c =>
    show some (c.picWrite a x).fixedPart = some c.fixedPart
    unfold Cartridge.picWrite Cartridge.chrWrite
    split_ifs <;> rfl

/-- A register write keeps the position, the parity and the cartridge's fixed part, and never clears the NMI
latch. -/
theorem Pic.writeReg_keeps (q : Pic) (r : BitVec 3) (x : Byte) :
    (q.writeReg r x).ppu.dot = q.ppu.dot ∧ (q.writeReg r x).ppu.scanline = q.ppu.scanline ∧
      (q.writeReg r x).ppu.oddFrame = q.ppu.oddFrame ∧
      (q.nmiPending = true → (q.writeReg r x).nmiPending = true) ∧
      (q.writeReg r x).cart.map Cartridge.fixedPart = q.cart.map Cartridge.fixedPart := by
  unfold Pic.writeReg
  split_ifs
  · exact ⟨rfl, rfl, rfl, fun e => by simp [Pic.writeCtrl, e], rfl⟩
  · exact ⟨rfl, rfl, rfl, id, rfl⟩
  · exact ⟨rfl, rfl, rfl, id, rfl⟩
  · exact ⟨rfl, rfl, rfl, id, rfl⟩
  · exact ⟨rfl, rfl, rfl, id, rfl⟩
  · unfold Ppu.writeScroll
    split_ifs <;> exact ⟨rfl, rfl, rfl, id, rfl⟩
  · unfold Ppu.writeAddr
    split_ifs <;> exact ⟨rfl, rfl, rfl, id, rfl⟩
  · unfold Pic.writeData
    dsimp only
    rw [Ppu.advance_eq]
    by_cases h : 0x3F00 ≤ q.ppu.busAddr.toNat
    · rw [if_pos h]
      exact ⟨rfl, rfl, rfl, id, rfl⟩
    · rw [if_neg h]
      exact ⟨rfl, rfl, rfl, id, picWrite_fixedPart _ _ _⟩

/-- The same of a bus write. -/
theorem busWrite_keeps (s : State) (a : Word) (x : Byte) :
    (busWrite s a x).ppu.dot = s.ppu.dot ∧ (busWrite s a x).ppu.scanline = s.ppu.scanline ∧
      (busWrite s a x).ppu.oddFrame = s.ppu.oddFrame ∧
      (s.nmiPending = true → (busWrite s a x).nmiPending = true) ∧
      (busWrite s a x).cart.map Cartridge.fixedPart = s.cart.map Cartridge.fixedPart := by
  unfold busWrite
  split_ifs
  · exact ⟨rfl, rfl, rfl, id, rfl⟩
  · exact s.pic.writeReg_keeps _ _
  · obtain ⟨_, _, _, _, _, e⟩ := ioWrite_shape s a x
    rw [e]
    exact ⟨rfl, rfl, rfl, id, rfl⟩
  · exact ⟨rfl, rfl, rfl, id, cartWrite_fixedPart _ _ _⟩

end Sys2Proof.Machine
end

