-- ==== Sys2Proof/Laws/Invariant.lean ====
section
/-! SUPPORT. The shared operations keep the memories in canonical form and the counters in range: one lemma
per operation of the memory, the mappers, the picture unit, the audio unit and the bus. -/

namespace Sys2Proof.Machine

/-! Memories and the cartridge. -/

theorem Memory.ok_write {n k : Nat} {m : Memory} (x : Byte) (h : Memory.ok n m) (hk : k < n) :
    Memory.ok n (Memory.write m k x) := by
  refine ⟨Memory.write_wf k x h.1, fun c hc => ?_⟩
  rcases Cells.write_indices k x hc with h' | h'
  · exact h.2 c h'
  · omega

theorem RegsB.write_count {r : RegsB} (a : Word) (x : Byte) (h : r.shiftCount ≤ 4) :
    (r.write a x).shiftCount ≤ 4 := by
  unfold RegsB.write
  dsimp only
  split_ifs <;> first | exact Nat.zero_le _ | (show r.shiftCount + 1 ≤ 4; omega)

theorem RegsD.write_banks {r : RegsD} (a : Word) (x : Byte) (h : Memory.ok 8 r.bankReg) :
    Memory.ok 8 (r.write a x).bankReg := by
  unfold RegsD.write
  dsimp only
  split_ifs <;> first | exact h | exact Memory.ok_write _ h r.regSelect.isLt

theorem MapperRegs.write_ok {m : MapperRegs} (a : Word) (x : Byte) (h : m.Ok) : (m.write a x).Ok := by
  cases m with
  | variantB r => exact RegsB.write_count a x h
  | variantD r => exact RegsD.write_banks a x h
  | _ => trivial

theorem MapperRegs.clockA12_ok {m : MapperRegs} (a : BitVec 14) (h : m.Ok) : (m.clockA12 a).Ok := by
  rcases clockA12_cases m a with e | ⟨r, n, re, irq, a12, e1, e2⟩
  · rw [e]; exact h
  · rw [e2]; rw [e1] at h; exact h

/-- A nametable cell is inside the nametable RAM of the header (R524, R525). -/
theorem ntIndex_lt (c : Cartridge) (a : BitVec 14) : ntIndex c.mirroring a < c.header.ntSize := by
  have bound : ∀ m : Mirroring, ntIndex m a < 0x1000 := fun m => by
    unfold ntIndex; cases m <;> exact BitVec.isLt _
  have small : ∀ (y z : BitVec 12), (y &&& 0x7FF#12 = y) → y.toNat < 0x800 := by
    intro y _ h
    rw [← h, BitVec.toNat_and]
    exact Nat.lt_of_le_of_lt Nat.and_le_right (by decide)
  have half : ∀ m : Mirroring, m ≠ .fourScreen → ntIndex m a < 0x800 := by
    intro m hm
    unfold ntIndex
    dsimp only
    generalize BitVec.extractLsb' 0 12 a = n
    have e1 : (n &&& 0x3FF#12) &&& 0x7FF#12 = n &&& 0x3FF#12 := by rw [BitVec.and_assoc]; rfl
    have e2 : ((n &&& 0x800#12) >>> 1) &&& 0x7FF#12 = (n &&& 0x800#12) >>> 1 := by
      apply BitVec.eq_of_getLsbD_eq
      intro i hi
      simp only [BitVec.getLsbD_and, BitVec.getLsbD_ushiftRight]
      cases hn : n.getLsbD (1 + i) <;> simp
      have : ∀ i : Fin 12, (0x800#12).getLsbD (1 + i) = true → (0x7FF#12).getLsbD i = true := by decide
      exact this ⟨i, hi⟩
    cases m with
    | horizontal =>
      refine small _ 0#12 ?_
      rw [BitVec.and_or_distrib_right, e1, e2]
    | vertical => exact small _ 0#12 (by rw [BitVec.and_assoc]; rfl)
    | oneScreenA => exact small _ 0#12 e1
    | oneScreenB => exact small _ 0#12 (by rw [BitVec.and_or_distrib_right, e1]; rfl)
    | fourScreen => exact absurd rfl hm
  unfold Header.ntSize
  cases hf : c.header.fourScreen
  · refine half _ ?_
    have hm : ∀ h : Header, h.mirroring ≠ .fourScreen := by
      intro h; unfold Header.mirroring; split <;> decide
    unfold Cartridge.mirroring
    rw [hf, if_neg (by decide)]
    cases c.regs with
    | variantB r => dsimp only; split_ifs <;> decide
    | variantD r => dsimp only; split_ifs <;> decide
    | variantE b n => dsimp only; split_ifs <;> decide
    | _ => exact hm _
  · exact bound _

theorem Cartridge.cpuWrite_ok {c : Cartridge} (a : Word) (x : Byte) (h : c.Ok) : (c.cpuWrite a x).Ok := by
  unfold Cartridge.cpuWrite
  split_ifs
  · exact h
  · exact ⟨h.image, Memory.ok_write x h.prgRam (Nat.mod_lt _ (by decide)), h.chrRam, h.ntRam, h.regs⟩
  · exact h
  · exact ⟨h.image, h.prgRam, h.chrRam, h.ntRam, MapperRegs.write_ok a x h.regs⟩

theorem Cartridge.picWrite_ok {c : Cartridge} (a : BitVec 14) (x : Byte) (h : c.Ok) : (c.picWrite a x).Ok := by
  unfold Cartridge.picWrite Cartridge.chrWrite
  split_ifs
  · exact ⟨h.image, h.prgRam, Memory.ok_write x h.chrRam (Nat.lt_succ_of_le Nat.and_le_right), h.ntRam, h.regs⟩
  · exact h
  · exact ⟨h.image, h.prgRam, h.chrRam, Memory.ok_write x h.ntRam (ntIndex_lt c a), h.regs⟩

/-- Every cartridge there is meets its invariant. -/
def CartOk (c : Option Cartridge) : Prop := ∀ d, c = some d → d.Ok

theorem CartOk.write {c : Option Cartridge} (a : Word) (x : Byte) (h : CartOk c) : CartOk (cartWrite c a x) := by
  intro d hd
  cases c with
  | none => cases hd
  | some c => injection hd with hd; exact hd ▸ Cartridge.cpuWrite_ok a x (h c rfl)

theorem CartOk.picWrite {c : Option Cartridge} (a : BitVec 14) (x : Byte) (h : CartOk c) :
    CartOk (picWrite c a x) := by
  intro d hd
  cases c with
  | none => cases hd
  | some c => injection hd with hd; exact hd ▸ Cartridge.picWrite_ok a x (h c rfl)

theorem CartOk.counter {c d : Option Cartridge} (h : CartOk c) (g : SameButCounter c d) : CartOk d := by
  obtain ⟨f, rfl, hf⟩ := g
  intro d hd
  cases c with
  | none => cases hd
  | some c =>
    injection hd with hd
    have k := h c rfl
    rw [← hd]
    refine ⟨k.image, k.prgRam, k.chrRam, k.ntRam, ?_⟩
    show (f c).Ok
    have kr := k.regs
    rcases hf c with e | ⟨r, n, re, irq, a12, e1, e2⟩
    · rw [e]; exact kr
    · rw [e1] at kr; rw [e2]; exact kr

theorem CartOk.tick {c : Option Cartridge} (h : CartOk c) : CartOk (c.map Cartridge.tick) := by
  cases c
  · exact h
  · exact h

/-! The picture unit. -/

/-- The picture unit's reach meets the invariant. -/
def Pic.Ok (q : Pic) : Prop := q.ppu.Ok ∧ CartOk q.cart

theorem palIndex_lt (a : BitVec 14) : palIndex a < 32 := by
  unfold palIndex; dsimp only; split <;> omega

theorem Ppu.Ok.setV {p : Ppu} (h : p.Ok) (v : BitVec 15) : ({ p with v := v } : Ppu).Ok :=
  ⟨h.dot, h.scanline, h.spriteCount, h.oam, h.palette, h.secOam, h.sprTileLo, h.sprTileHi, h.frameBuffer⟩

theorem Ppu.Ok.advance {p : Ppu} (h : p.Ok) : p.advance.Ok := by
  unfold Ppu.advance
  split <;> exact h.setV _

theorem Pic.Ok.afterRead {q : Pic} (h : q.Ok) (r : BitVec 3) : (q.afterRead r).Ok := by
  obtain ⟨h, k⟩ := h
  have g := h.advance
  unfold Pic.afterRead
  split_ifs
  · exact ⟨⟨h.dot, h.scanline, h.spriteCount, h.oam, h.palette, h.secOam, h.sprTileLo, h.sprTileHi,
      h.frameBuffer⟩, k⟩
  · exact ⟨⟨g.dot, g.scanline, g.spriteCount, g.oam, g.palette, g.secOam, g.sprTileLo, g.sprTileHi,
      g.frameBuffer⟩, k.counter (picRead_counter _ _)⟩
  · exact ⟨h, k⟩

theorem Pic.Ok.writeReg {q : Pic} (h : q.Ok) (r : BitVec 3) (x : Byte) : (q.writeReg r x).Ok := by
  obtain ⟨h, k⟩ := h
  have g := h.advance
  unfold Pic.writeReg
  split_ifs
  · exact ⟨⟨h.dot, h.scanline, h.spriteCount, h.oam, h.palette, h.secOam, h.sprTileLo, h.sprTileHi,
      h.frameBuffer⟩, k⟩
  · exact ⟨⟨h.dot, h.scanline, h.spriteCount, h.oam, h.palette, h.secOam, h.sprTileLo, h.sprTileHi,
      h.frameBuffer⟩, k⟩
  · exact ⟨h, k⟩
  · exact ⟨⟨h.dot, h.scanline, h.spriteCount, h.oam, h.palette, h.secOam, h.sprTileLo, h.sprTileHi,
      h.frameBuffer⟩, k⟩
  · exact ⟨⟨h.dot, h.scanline, h.spriteCount, Memory.ok_write x h.oam (BitVec.isLt _), h.palette, h.secOam,
      h.sprTileLo, h.sprTileHi, h.frameBuffer⟩, k⟩
  · refine ⟨?_, k⟩
    unfold Ppu.writeScroll
    split <;> exact ⟨h.dot, h.scanline, h.spriteCount, h.oam, h.palette, h.secOam, h.sprTileLo, h.sprTileHi,
      h.frameBuffer⟩
  · refine ⟨?_, k⟩
    unfold Ppu.writeAddr
    split <;> exact ⟨h.dot, h.scanline, h.spriteCount, h.oam, h.palette, h.secOam, h.sprTileLo, h.sprTileHi,
      h.frameBuffer⟩
  · unfold Pic.writeData
    dsimp only
    split
    · exact ⟨⟨g.dot, g.scanline, g.spriteCount, g.oam, Memory.ok_write x g.palette (palIndex_lt _), g.secOam,
        g.sprTileLo, g.sprTileHi, g.frameBuffer⟩, k⟩
    · exact ⟨g, k.picWrite _ x⟩

theorem Pic.Ok.busRead {q : Pic} (h : q.Ok) (a : BitVec 14) : (q.busRead a).2.Ok :=
  ⟨h.1, h.2.counter (picRead_counter _ _)⟩

theorem Pic.Ok.fetchAndIncX {q : Pic} (h : q.Ok) : q.fetchAndIncX.Ok :=
  ⟨⟨h.1.dot, h.1.scanline, h.1.spriteCount, h.1.oam, h.1.palette, h.1.secOam, h.1.sprTileLo, h.1.sprTileHi,
    h.1.frameBuffer⟩, h.2.counter q.fetchTile_keeps.cart⟩

theorem Pic.Ok.produceDot {q : Pic} (h : q.Ok) (hs : q.ppu.scanline < 240) (hd : q.ppu.dot < 256) :
    Pic.Ok { q with ppu := q.ppu.produceDot } := by
  refine ⟨⟨h.1.dot, h.1.scanline, h.1.spriteCount, h.1.oam, h.1.palette, h.1.secOam, h.1.sprTileLo,
    h.1.sprTileHi, Cells.write_wf _ _ h.1.frameBuffer.1, fun c hc => ?_⟩, h.2⟩
  rcases Cells.write_indices _ _ hc with h' | h'
  · exact h.1.frameBuffer.2 c h'
  · omega

theorem Pic.Ok.selectSprite {q : Pic} (h : q.Ok) (hc : q.ppu.spriteCount < 8) (n row : Nat) :
    (q.selectSprite n row).Ok := by
  refine ⟨⟨h.1.dot, h.1.scanline, hc, h.1.oam, h.1.palette, ?_,
    Memory.ok_write _ h.1.sprTileLo hc, Memory.ok_write _ h.1.sprTileHi hc, h.1.frameBuffer⟩,
    h.2.counter (q.selectSprite_keeps n row).cart⟩
  show Memory.ok 32 (Memory.write (Memory.write (Memory.write (Memory.write q.ppu.secOam
    (4 * q.ppu.spriteCount) _) (4 * q.ppu.spriteCount + 1) _) (4 * q.ppu.spriteCount + 2) _)
    (4 * q.ppu.spriteCount + 3) _)
  generalize q.ppu.spriteCount = k at hc
  exact Memory.ok_write _ (Memory.ok_write _ (Memory.ok_write _ (Memory.ok_write _ h.1.secOam (by omega))
    (by omega)) (by omega)) (by omega)

theorem Pic.Ok.scanSprites {q : Pic} (ns : List Nat) (h : q.Ok) : (Pic.scanSprites ns q).Ok := by
  induction ns generalizing q with
  | nil => exact h
  | cons n ns ih =>
    unfold Pic.scanSprites
    dsimp only
    split_ifs with h1 h2
    · exact ⟨⟨h.1.dot, h.1.scanline, h.1.spriteCount, h.1.oam, h.1.palette, h.1.secOam, h.1.sprTileLo,
        h.1.sprTileHi, h.1.frameBuffer⟩, h.2⟩
    · exact ih (h.selectSprite (Nat.lt_of_le_of_ne h.1.spriteCount h2) _ _)
    · exact ih h

theorem Pic.Ok.clearSprites {q : Pic} (h : q.Ok) : q.clearSprites.Ok :=
  ⟨⟨h.1.dot, h.1.scanline, Nat.zero_le _, h.1.oam, h.1.palette, h.1.secOam, h.1.sprTileLo, h.1.sprTileHi,
    h.1.frameBuffer⟩, h.2⟩

theorem Pic.Ok.evaluateSprites {q : Pic} (h : q.Ok) : q.evaluateSprites.Ok := by
  unfold Pic.evaluateSprites
  dsimp only
  split_ifs
  · exact (h.scanSprites _).busRead _
  · exact h.scanSprites _

theorem Pic.Ok.setV {q : Pic} (h : q.Ok) (v : BitVec 15) : Pic.Ok { q with ppu := { q.ppu with v := v } } :=
  ⟨h.1.setV v, h.2⟩

theorem Pic.Ok.dotWork {q : Pic} (h : q.Ok) : q.dotWork.Ok := by
  have flags : ∀ a b c d, Pic.Ok { q with
      ppu := { q.ppu with vblank := a, spriteZeroHit := b, spriteOverflow := c }, nmiPending := d } :=
    fun _ _ _ _ => ⟨⟨h.1.dot, h.1.scanline, h.1.spriteCount, h.1.oam, h.1.palette, h.1.secOam, h.1.sprTileLo,
      h.1.sprTileHi, h.1.frameBuffer⟩, h.2⟩
  unfold Pic.dotWork
  split_ifs with hs h1 h2 h3
  · unfold Pic.visibleDot
    dsimp only
    split_ifs with hd
    · exact (h.produceDot hs hd).fetchAndIncX
    · exact h.produceDot hs hd
    · exact h.setV _
    · exact h
    · exact h.setV _
    · exact h
    · exact h.clearSprites.evaluateSprites
    · exact h.clearSprites
    · exact h.fetchAndIncX
    · exact h
    · exact h
  · exact ⟨⟨h.1.dot, h.1.scanline, h.1.spriteCount, h.1.oam, h.1.palette, h.1.secOam, h.1.sprTileLo,
      h.1.sprTileHi, h.1.frameBuffer⟩, h.2⟩
  · exact h
  · unfold Pic.preRenderDot
    dsimp only
    split_ifs
    · exact flags _ _ _ _
    · exact h.setV _
    · exact h
    · exact h.clearSprites.busRead _
    · exact h.clearSprites
    · exact h.setV _
    · exact h
    · exact h.fetchAndIncX
    · exact h
    · exact h
  · exact h

theorem Ppu.Ok.advancePosition {p : Ppu} (h : p.Ok) : p.advancePosition.Ok := by
  have hd := h.dot
  have hs := h.scanline
  unfold Ppu.advancePosition
  split
  · refine ⟨Nat.zero_le _, ?_, h.spriteCount, h.oam, h.palette, h.secOam, h.sprTileLo, h.sprTileHi,
      h.frameBuffer⟩
    show (if p.scanline + 1 = 262 then 0 else p.scanline + 1) ≤ 261
    split <;> omega
  · refine ⟨?_, h.scanline, h.spriteCount, h.oam, h.palette, h.secOam, h.sprTileLo, h.sprTileHi, h.frameBuffer⟩
    show p.dot + 1 ≤ 340
    omega

theorem Pic.Ok.step {q : Pic} (h : q.Ok) : q.step.Ok := ⟨h.dotWork.1.advancePosition, h.dotWork.2⟩

/-! The audio unit. -/

theorem lengthOf_le (x : Byte) : lengthOf x ≤ 254 := by
  have : ∀ x : Byte, lengthOf x ≤ 254 := by decide
  exact this x

theorem clockLength_le {b : Bool} {n m : Nat} (h : n ≤ m) : clockLength b n ≤ m := by
  unfold clockLength; split <;> omega

theorem Pulse.Ok.updateSweep (first : Bool) (p : Pulse) (h1 : p.timerValue ≤ 4095) (h2 : p.length ≤ 254) :
    (Pulse.updateSweep first p).Ok := by
  have ht := p.timer.isLt
  have hs : p.timer.toNat >>> p.sweepShift.toNat ≤ p.timer.toNat := by
    rw [Nat.shiftRight_eq_div_pow]; exact Nat.div_le_self _ _
  have key : ∀ k n : Nat, k ≤ n → n ≤ 2047 → ∀ f g : Bool,
      -2048 ≤ (n : Int) + (if g then (if f then -(k : Int) - 1 else -(k : Int)) else (k : Int)) ∧
        (n : Int) + (if g then (if f then -(k : Int) - 1 else -(k : Int)) else (k : Int)) ≤ 4094 := by
    intro k n h1 h2 f g
    cases f <;> cases g <;> simp <;> omega
  have hk := key _ _ hs (Nat.le_of_lt_succ ht) first p.sweepNegate
  exact ⟨h1, h2, hk.1, hk.2⟩

theorem Pulse.Ok.write {p : Pulse} (h : p.Ok) (first : Bool) (r : BitVec 2) (x : Byte) :
    (Pulse.write first p r x).Ok := by
  have hl := lengthOf_le x
  have h2 := h.length
  unfold Pulse.write
  split_ifs
  · exact ⟨h.timerValue, h.length, h.targetLow, h.targetHigh⟩
  · exact Pulse.Ok.updateSweep _ _ h.timerValue h.length
  · exact Pulse.Ok.updateSweep _ _ h.timerValue h.length
  · exact Pulse.Ok.updateSweep _ _ h.timerValue hl
  · exact Pulse.Ok.updateSweep _ _ h.timerValue h.length

theorem Pulse.Ok.clockSweep {p : Pulse} (h : p.Ok) (first : Bool) : (Pulse.clockSweep first p).Ok := by
  have key : ∀ q : Pulse, q.Ok → ∀ a b, ({ q with sweepTimer := a, sweepReload := b } : Pulse).Ok :=
    fun q g _ _ => ⟨g.timerValue, g.length, g.targetLow, g.targetHigh⟩
  have hq : Pulse.Ok (if p.sweepTimer = 0#3 ∧ p.sweepEnable ∧ p.sweepMuting = false ∧ p.sweepShift ≠ 0#3 then
      Pulse.updateSweep first { p with timer := BitVec.ofInt 11 p.sweepTarget } else p) := by
    split
    · exact Pulse.Ok.updateSweep _ _ h.timerValue h.length
    · exact h
  unfold Pulse.clockSweep
  dsimp only
  generalize (if p.sweepTimer = 0#3 ∧ p.sweepEnable ∧ p.sweepMuting = false ∧ p.sweepShift ≠ 0#3 then
      Pulse.updateSweep first { p with timer := BitVec.ofInt 11 p.sweepTarget } else p) = q at hq ⊢
  split
  · exact key _ hq _ _
  · exact key _ hq _ _

theorem Pulse.Ok.step {p : Pulse} (h : p.Ok) : p.step.Ok := by
  have ht := p.timer.isLt
  have h1 := h.timerValue
  unfold Pulse.step
  dsimp only
  split
  · exact ⟨by show p.timerValue - 1 ≤ 4095; omega, h.length, h.targetLow, h.targetHigh⟩
  · exact ⟨by show p.timer.toNat * 2 + 1 ≤ 4095; omega, h.length, h.targetLow, h.targetHigh⟩

theorem Triangle.Ok.write {c : Triangle} (h : c.Ok) (r : BitVec 2) (x : Byte) : (c.write r x).Ok := by
  have hl := lengthOf_le x
  unfold Triangle.write
  split_ifs
  · exact ⟨h.timerValue, h.length⟩
  · exact h
  · exact ⟨h.timerValue, h.length⟩
  · exact ⟨h.timerValue, hl⟩
  · exact ⟨h.timerValue, h.length⟩

theorem Triangle.Ok.step {c : Triangle} (h : c.Ok) : c.step.Ok := by
  have ht := c.timer.isLt
  have h1 := h.timerValue
  unfold Triangle.step
  dsimp only
  split_ifs
  · exact ⟨by show c.timerValue - 1 ≤ 2047; omega, h.length⟩
  · exact ⟨by show c.timer.toNat ≤ 2047; omega, h.length⟩
  · exact ⟨by show c.timer.toNat ≤ 2047; omega, h.length⟩

theorem noisePeriod_le (x : Byte) : noisePeriodTable.getD (x.toNat % 16) 0 - 1 ≤ 4067 := by
  have : ∀ x : Byte, noisePeriodTable.getD (x.toNat % 16) 0 - 1 ≤ 4067 := by decide
  exact this x

theorem dmcRate_le (x : Byte) : dmcRateTable.getD (x.toNat % 16) 0 - 1 ≤ 427 := by
  have : ∀ x : Byte, dmcRateTable.getD (x.toNat % 16) 0 - 1 ≤ 427 := by decide
  exact this x

theorem Noise.Ok.write {c : Noise} (h : c.Ok) (r : BitVec 2) (x : Byte) : (c.write r x).Ok := by
  have hl := lengthOf_le x
  unfold Noise.write
  split_ifs
  · exact ⟨h.timer, h.timerValue, h.length, h.shift⟩
  · exact h
  · exact ⟨noisePeriod_le x, h.timerValue, h.length, h.shift⟩
  · exact ⟨h.timer, h.timerValue, hl, h.shift⟩
  · exact ⟨h.timer, h.timerValue, h.length, h.shift⟩

/-- A shift of a non-zero register is not zero: the bit shifted in is 1 when only bit 0 was. -/
theorem shifted_ne {r : BitVec 15} (tonal : Bool) (h : r ≠ 0#15) : noiseShift tonal r ≠ 0#15 := by
  intro e
  apply h
  have b : ∀ k, (noiseShift tonal r).getLsbD k = false := by rw [e]; simp
  unfold noiseShift at b
  have hb : ∀ k, k < 14 → r.getLsbD (k + 1) = false := by
    intro k hk
    have := b k
    simp only [BitVec.getLsbD_or, BitVec.getLsbD_ushiftRight, Bool.or_eq_false_iff] at this
    rw [Nat.add_comm]; exact this.1
  have h14 := b 14
  have h0 : r.getLsbD 0 = false := by
    have h1 := hb 0 (by omega); have h6 := hb 5 (by omega)
    simp only [Nat.zero_add, Nat.reduceAdd] at h1 h6
    rw [h1, h6] at h14
    by_contra hc
    simp only [Bool.not_eq_false] at hc
    rw [hc] at h14
    cases tonal <;> simp at h14
  apply BitVec.eq_of_getLsbD_eq
  intro k hk
  cases k with
  | zero => rw [h0]; rfl
  | succ k => rw [hb k (by omega)]; simp

theorem Noise.Ok.step {c : Noise} (h : c.Ok) : c.step.Ok := by
  have h1 := h.timerValue
  unfold Noise.step
  dsimp only
  split_ifs
  all_goals first
    | exact ⟨h.timer, by show c.timerValue - 1 ≤ 4067; omega, h.length, h.shift⟩
    | exact ⟨h.timer, h.timer, h.length, shifted_ne _ h.shift⟩

theorem Dmc.Ok.write {c : Dmc} (h : c.Ok) (r : BitVec 2) (x : Byte) : (c.write r x).Ok := by
  have hx := x.isLt
  have ha : ∀ x : Byte, 0xC000 ≤ (0xC000#16 ||| (x.setWidth 16 <<< 6)).toNat ∧
      (0xC000#16 ||| (x.setWidth 16 <<< 6)).toNat ≤ 0xFFC0 := by decide
  unfold Dmc.write
  split_ifs
  · exact ⟨dmcRate_le x, h.timerValue, h.sampleAddress, h.sampleLength, h.address, h.bytesLeft, h.bitsLeft⟩
  · exact ⟨h.timer, h.timerValue, h.sampleAddress, h.sampleLength, h.address, h.bytesLeft, h.bitsLeft⟩
  · exact ⟨h.timer, h.timerValue, ha x, h.sampleLength, h.address, h.bytesLeft, h.bitsLeft⟩
  · exact ⟨h.timer, h.timerValue, h.sampleAddress, ⟨Nat.succ_le_succ (Nat.zero_le _), by
      show x.toNat * 16 + 1 ≤ 4081; omega⟩, h.address, h.bytesLeft, h.bitsLeft⟩

theorem Dmc.Ok.stepOutput {c : Dmc} (h : c.Ok) : c.stepOutput.Ok := by
  have h1 := h.timerValue
  have h2 := h.bitsLeft
  unfold Dmc.stepOutput
  split
  · exact ⟨h.timer, by show c.timerValue - 1 ≤ 427; omega, h.sampleAddress, h.sampleLength, h.address,
      h.bytesLeft, h.bitsLeft⟩
  · dsimp only
    split
    · split <;> exact ⟨h.timer, h.timer, h.sampleAddress, h.sampleLength, h.address, h.bytesLeft, by
        show 1 ≤ 8 ∧ 8 ≤ 8; decide⟩
    · exact ⟨h.timer, h.timer, h.sampleAddress, h.sampleLength, h.address, h.bytesLeft, by
        show 1 ≤ c.bitsLeft - 1 ∧ c.bitsLeft - 1 ≤ 8; omega⟩

theorem Dmc.Ok.takeByte {c : Dmc} (h : c.Ok) (b : Byte) : (c.takeByte b).Ok := by
  have h1 := h.bytesLeft
  have h2 := h.address
  have ha : 0x8000 ≤ (if c.address = 0xFFFF#16 then 0x8000#16 else c.address + 1#16).toNat := by
    have lt := c.address.isLt
    split
    · decide
    · rename_i hne
      have : c.address.toNat ≠ 0xFFFF := fun e => hne (BitVec.eq_of_toNat_eq e)
      rw [BitVec.toNat_add]
      simp only [BitVec.toNat_ofNat]
      omega
  have hs := h.sampleAddress
  have hl := h.sampleLength
  unfold Dmc.takeByte
  dsimp only
  split
  · exact ⟨h.timer, h.timerValue, hs, hl, by show 0x8000 ≤ c.sampleAddress.toNat; omega, hl.2, h.bitsLeft⟩
  · exact ⟨h.timer, h.timerValue, hs, hl, ha, by show c.bytesLeft - 1 ≤ 4081; omega, h.bitsLeft⟩

theorem Apu.Ok.clockQuarter {u : Apu} (h : u.Ok) : u.clockQuarter.Ok :=
  ⟨h.frameCounter, ⟨h.p1.timerValue, h.p1.length, h.p1.targetLow, h.p1.targetHigh⟩,
    ⟨h.p2.timerValue, h.p2.length, h.p2.targetLow, h.p2.targetHigh⟩, ⟨h.tri.timerValue, h.tri.length⟩,
    ⟨h.noise.timer, h.noise.timerValue, h.noise.length, h.noise.shift⟩, h.dmc, h.sampleOffset⟩

theorem Apu.Ok.clockHalf {u : Apu} (h : u.Ok) : u.clockHalf.Ok :=
  ⟨h.frameCounter,
    Pulse.Ok.clockSweep (p := { u.p1 with length := clockLength u.p1.env.halt u.p1.length })
      ⟨h.p1.timerValue, clockLength_le h.p1.length, h.p1.targetLow, h.p1.targetHigh⟩ true,
    Pulse.Ok.clockSweep (p := { u.p2 with length := clockLength u.p2.env.halt u.p2.length })
      ⟨h.p2.timerValue, clockLength_le h.p2.length, h.p2.targetLow, h.p2.targetHigh⟩ false,
    ⟨h.tri.timerValue, clockLength_le h.tri.length⟩,
    ⟨h.noise.timer, h.noise.timerValue, clockLength_le h.noise.length, h.noise.shift⟩, h.dmc, h.sampleOffset⟩

theorem Apu.Ok.countFrame {u : Apu} (h : u.Ok) : u.countFrame.Ok := by
  have hc := h.frameCounter
  refine ⟨?_, h.p1, h.p2, h.tri, h.noise, h.dmc, h.sampleOffset⟩
  show (if (u.frameCounter = 29830 ∧ u.step5Mode = false) ∨ u.frameCounter = 37282 then 0
    else u.frameCounter) + 1 ≤ 37282
  split <;> omega

theorem Apu.Ok.frameEvents {u : Apu} (h : u.Ok) : u.frameEvents.Ok := by
  have q := h.clockQuarter
  have g := q.clockHalf
  unfold Apu.frameEvents
  dsimp only
  split_ifs
  · exact q
  · exact g
  · exact ⟨g.frameCounter, g.p1, g.p2, g.tri, g.noise, g.dmc, g.sampleOffset⟩
  · exact g
  · exact h

theorem Apu.Ok.stepChannels {u : Apu} (h : u.Ok) : u.stepChannels.Ok := by
  have g := h.countFrame.frameEvents
  exact ⟨g.frameCounter, g.p1.step, g.p2.step, g.tri.step, g.noise.step, g.dmc.stepOutput, g.sampleOffset⟩

theorem Apu.Ok.takeDmcByte {u : Apu} (h : u.Ok) (b : Byte) : (u.takeDmcByte b).Ok :=
  ⟨h.frameCounter, h.p1, h.p2, h.tri, h.noise, h.dmc.takeByte b, h.sampleOffset⟩

theorem Apu.Ok.appendSample {u : Apu} (h : u.Ok) : u.appendSample.Ok := by
  have hs := h.sampleOffset
  refine ⟨h.frameCounter, h.p1, h.p2, h.tri, h.noise, h.dmc, ?_⟩
  show (if u.sampleOffset + 1 = lastSample + 1 then lastSample else u.sampleOffset + 1) ≤ 29780
  unfold lastSample
  split <;> omega

theorem Apu.Ok.writeFrame {u : Apu} (h : u.Ok) (x : Byte) : (u.writeFrame x).Ok := by
  have g : ∀ a b c, Apu.Ok { u with step5Mode := a, irqInhibit := b, frameIrq := c, frameCounter := 0 } :=
    fun _ _ _ => ⟨Nat.zero_le _, h.p1, h.p2, h.tri, h.noise, h.dmc, h.sampleOffset⟩
  unfold Apu.writeFrame
  dsimp only
  split
  · exact (g _ _ _).clockQuarter.clockHalf
  · exact g _ _ _

theorem Apu.Ok.writeEnable {u : Apu} (h : u.Ok) (x : Byte) : (u.writeEnable x).Ok := by
  have keep : ∀ (b : Bool) {n : Nat}, n ≤ 254 → (if b then n else 0) ≤ 254 := by
    intro b n hn; split <;> omega
  have hs := h.dmc.sampleAddress
  have hd := h.dmc
  refine ⟨h.frameCounter, ⟨h.p1.timerValue, keep _ h.p1.length, h.p1.targetLow, h.p1.targetHigh⟩,
    ⟨h.p2.timerValue, keep _ h.p2.length, h.p2.targetLow, h.p2.targetHigh⟩,
    ⟨h.tri.timerValue, keep _ h.tri.length⟩,
    ⟨h.noise.timer, h.noise.timerValue, keep _ h.noise.length, h.noise.shift⟩, ?_, h.sampleOffset⟩
  show Dmc.Ok (if x.getLsbD 4 then _ else _)
  split_ifs
  · exact ⟨hd.timer, hd.timerValue, hs, hd.sampleLength, by
      show 0x8000 ≤ u.dmc.sampleAddress.toNat; omega, hd.sampleLength.2, hd.bitsLeft⟩
  · exact hd
  · exact ⟨hd.timer, hd.timerValue, hs, hd.sampleLength, hd.address, Nat.zero_le _, hd.bitsLeft⟩

/-! The bus. -/

/-- The invariant but for the cycles left of the instruction in flight. -/
structure State.RestOk (s : State) : Prop where
  ram : Memory.ok 0x800 s.ram
  dmaCounter : s.dmaCounter ≤ 513
  ppu : s.ppu.Ok
  apu : s.apu.Ok
  cart : CartOk s.cart

theorem State.RestOk.pic {s : State} (h : s.RestOk) : s.pic.Ok := ⟨h.ppu, h.cart⟩

theorem State.RestOk.withPic {s : State} (h : s.RestOk) {q : Pic} (g : q.Ok) : (s.withPic q).RestOk :=
  ⟨h.ram, h.dmaCounter, g.1, h.apu, g.2⟩

theorem State.RestOk.withApu {s : State} (h : s.RestOk) {u : Apu} (g : u.Ok) : State.RestOk { s with apu := u } :=
  ⟨h.ram, h.dmaCounter, h.ppu, g, h.cart⟩

theorem State.RestOk.afterRead {s : State} (h : s.RestOk) (a : Word) : (afterRead s a).RestOk := by
  have hu := h.apu
  unfold Machine.afterRead
  split_ifs
  · exact h
  · exact h.withPic (h.pic.afterRead _)
  · exact h.withApu ⟨hu.frameCounter, hu.p1, hu.p2, hu.tri, hu.noise, hu.dmc, hu.sampleOffset⟩
  · exact ⟨h.ram, h.dmaCounter, h.ppu, h.apu, h.cart⟩
  · exact ⟨h.ram, h.dmaCounter, h.ppu, h.apu, h.cart⟩
  · exact h

theorem State.RestOk.ioWrite {s : State} (h : s.RestOk) (a : Word) (x : Byte) : (ioWrite s a x).RestOk := by
  have hu := h.apu
  unfold Machine.ioWrite
  dsimp only
  repeat' split
  · exact h.withApu ⟨hu.frameCounter, hu.p1.write _ _ _, hu.p2, hu.tri, hu.noise, hu.dmc, hu.sampleOffset⟩
  · exact h.withApu ⟨hu.frameCounter, hu.p1, hu.p2.write _ _ _, hu.tri, hu.noise, hu.dmc, hu.sampleOffset⟩
  · exact h.withApu ⟨hu.frameCounter, hu.p1, hu.p2, hu.tri.write _ _, hu.noise, hu.dmc, hu.sampleOffset⟩
  · exact h.withApu ⟨hu.frameCounter, hu.p1, hu.p2, hu.tri, hu.noise.write _ _, hu.dmc, hu.sampleOffset⟩
  · exact h.withApu ⟨hu.frameCounter, hu.p1, hu.p2, hu.tri, hu.noise, hu.dmc.write _ _, hu.sampleOffset⟩
  · refine ⟨h.ram, ?_, h.ppu, h.apu, h.cart⟩
    show (if longDma s then 0 else 1) ≤ 513
    split <;> decide
  · exact h.withApu (hu.writeEnable x)
  · exact ⟨h.ram, h.dmaCounter, h.ppu, h.apu, h.cart⟩
  · exact h.withApu (hu.writeFrame x)
  · exact h

theorem State.RestOk.busWrite {s : State} (h : s.RestOk) (a : Word) (x : Byte) : (busWrite s a x).RestOk := by
  unfold Machine.busWrite
  split_ifs
  · exact ⟨Memory.ok_write x h.ram (Nat.mod_lt _ (by decide)), h.dmaCounter, h.ppu, h.apu, h.cart⟩
  · exact h.withPic (h.pic.writeReg _ x)
  · exact h.ioWrite a x
  · exact ⟨h.ram, h.dmaCounter, h.ppu, h.apu, h.cart.write a x⟩

theorem State.RestOk.dmaStep {s : State} (h : s.RestOk) : (dmaStep s).RestOk := by
  have ht : (dmaTransfer s).RestOk := by
    have g := h.afterRead (dmaAddress s)
    unfold dmaTransfer
    split_ifs
    · exact h
    · exact ⟨g.ram, g.dmaCounter, g.ppu, g.apu, g.cart⟩
    · exact h.withPic (h.pic.writeReg _ _)
  have hc := h.dmaCounter
  unfold Machine.dmaStep
  dsimp only
  split
  · exact ⟨ht.ram, Nat.zero_le _, ht.ppu, ht.apu, ht.cart⟩
  · exact ⟨ht.ram, by show s.dmaCounter + 1 ≤ 513; omega, ht.ppu, ht.apu, ht.cart⟩

/-- Bus reads and changes of the CPU's registers keep the invariant but for the cycles left. -/
theorem restOk_closed : ReadClosed (fun s t => s.RestOk → t.RestOk) where
  trans h g := fun k => g (h k)
  regs {s t} e k := by
    unfold RegsOnly at e
    rw [e]
    exact ⟨k.ram, k.dmaCounter, k.ppu, k.apu, k.cart⟩
  read _ a k := k.afterRead a

end Sys2Proof.Machine
end

