-- ==== Sys2Proof/Laws/PerInstr.lean ====
section
/-! SUPPORT. The cell of the opcode map each instruction is built from, one lemma per constructor; and the
lengths: the family Length of LAWS.json (spec/30_encoding.md R106, R107). -/

namespace Sys2Proof.Machine

/-- A cell of no operand decodes its byte. -/
theorem encodes_one {op : Byte} {i : Instr} (h : rowOf op = .one i) : Encodes [op] i := by
  simp [Encodes, decode, h]

/-- A cell of a byte operand decodes its two bytes. -/
theorem encodes_two {op : Byte} {mk : Byte → Instr} (h : rowOf op = .two mk) (b : Byte) :
    Encodes [op, b] (mk b) := by
  simp [Encodes, decode, h]

/-- A cell of a word operand decodes its three bytes. -/
theorem encodes_three {op : Byte} {mk : Word → Instr} (h : rowOf op = .three mk) (w : Word) :
    Encodes [op, loByte w, hiByte w] (mk w) := by
  simp [Encodes, decode, h, wordOf_bytes]

end Sys2Proof.Machine

namespace Sys2Proof.Laws.Length

/-- What the map says of an instruction: the cell of its opcode byte has the length of its encoding, and
builds it from the bytes after the opcode byte. -/
def Statement (i : Instr) : Prop :=
  (rowOf (opcodeOf i)).length = (encode i).length ∧
    (rowOf (opcodeOf i)).build ((encode i).getD 1 0x00#8) ((encode i).getD 2 0x00#8) = i

/-- The statement from the cell. -/
theorem of_cell {i : Instr} (op : Byte) (r : Row) (h1 : opcodeOf i = op) (h2 : rowOf op = r)
    (h3 : r.length = (encode i).length)
    (h4 : r.build ((encode i).getD 1 0x00#8) ((encode i).getD 2 0x00#8) = i) : Statement i :=
  ⟨by rw [h1, h2, h3], by rw [h1, h2, h4]⟩

theorem brk : Statement .brk := of_cell 0x00#8 (.one .brk) rfl rfl rfl rfl
theorem oraIzx (b : Byte) : Statement (.oraIzx b) := of_cell 0x01#8 (.two .oraIzx) rfl rfl rfl rfl
theorem kil02 : Statement .kil02 := of_cell 0x02#8 (.one .kil02) rfl rfl rfl rfl
theorem sloIzx (b : Byte) : Statement (.sloIzx b) := of_cell 0x03#8 (.two .sloIzx) rfl rfl rfl rfl
theorem nop04 (b : Byte) : Statement (.nop04 b) := of_cell 0x04#8 (.two .nop04) rfl rfl rfl rfl
theorem oraZp (b : Byte) : Statement (.oraZp b) := of_cell 0x05#8 (.two .oraZp) rfl rfl rfl rfl
theorem aslZp (b : Byte) : Statement (.aslZp b) := of_cell 0x06#8 (.two .aslZp) rfl rfl rfl rfl
theorem sloZp (b : Byte) : Statement (.sloZp b) := of_cell 0x07#8 (.two .sloZp) rfl rfl rfl rfl
theorem php : Statement .php := of_cell 0x08#8 (.one .php) rfl rfl rfl rfl
theorem oraImm (b : Byte) : Statement (.oraImm b) := of_cell 0x09#8 (.two .oraImm) rfl rfl rfl rfl
theorem aslAcc : Statement .aslAcc := of_cell 0x0A#8 (.one .aslAcc) rfl rfl rfl rfl
theorem anc0B (b : Byte) : Statement (.anc0B b) := of_cell 0x0B#8 (.two .anc0B) rfl rfl rfl rfl
theorem nop0C (w : Word) : Statement (.nop0C w) :=
  of_cell 0x0C#8 (.three .nop0C) rfl rfl rfl (congrArg Instr.nop0C (Machine.wordOf_bytes w))
theorem oraAbs (w : Word) : Statement (.oraAbs w) :=
  of_cell 0x0D#8 (.three .oraAbs) rfl rfl rfl (congrArg Instr.oraAbs (Machine.wordOf_bytes w))
theorem aslAbs (w : Word) : Statement (.aslAbs w) :=
  of_cell 0x0E#8 (.three .aslAbs) rfl rfl rfl (congrArg Instr.aslAbs (Machine.wordOf_bytes w))
theorem sloAbs (w : Word) : Statement (.sloAbs w) :=
  of_cell 0x0F#8 (.three .sloAbs) rfl rfl rfl (congrArg Instr.sloAbs (Machine.wordOf_bytes w))
theorem bpl (b : Byte) : Statement (.bpl b) := of_cell 0x10#8 (.two .bpl) rfl rfl rfl rfl
theorem oraIzy (b : Byte) : Statement (.oraIzy b) := of_cell 0x11#8 (.two .oraIzy) rfl rfl rfl rfl
theorem kil12 : Statement .kil12 := of_cell 0x12#8 (.one .kil12) rfl rfl rfl rfl
theorem sloIzy (b : Byte) : Statement (.sloIzy b) := of_cell 0x13#8 (.two .sloIzy) rfl rfl rfl rfl
theorem nop14 (b : Byte) : Statement (.nop14 b) := of_cell 0x14#8 (.two .nop14) rfl rfl rfl rfl
theorem oraZpx (b : Byte) : Statement (.oraZpx b) := of_cell 0x15#8 (.two .oraZpx) rfl rfl rfl rfl
theorem aslZpx (b : Byte) : Statement (.aslZpx b) := of_cell 0x16#8 (.two .aslZpx) rfl rfl rfl rfl
theorem sloZpx (b : Byte) : Statement (.sloZpx b) := of_cell 0x17#8 (.two .sloZpx) rfl rfl rfl rfl
theorem clc : Statement .clc := of_cell 0x18#8 (.one .clc) rfl rfl rfl rfl
theorem oraAby (w : Word) : Statement (.oraAby w) :=
  of_cell 0x19#8 (.three .oraAby) rfl rfl rfl (congrArg Instr.oraAby (Machine.wordOf_bytes w))
theorem nop1A : Statement .nop1A := of_cell 0x1A#8 (.one .nop1A) rfl rfl rfl rfl
theorem sloAby (w : Word) : Statement (.sloAby w) :=
  of_cell 0x1B#8 (.three .sloAby) rfl rfl rfl (congrArg Instr.sloAby (Machine.wordOf_bytes w))
theorem nop1C (w : Word) : Statement (.nop1C w) :=
  of_cell 0x1C#8 (.three .nop1C) rfl rfl rfl (congrArg Instr.nop1C (Machine.wordOf_bytes w))
theorem oraAbx (w : Word) : Statement (.oraAbx w) :=
  of_cell 0x1D#8 (.three .oraAbx) rfl rfl rfl (congrArg Instr.oraAbx (Machine.wordOf_bytes w))
theorem aslAbx (w : Word) : Statement (.aslAbx w) :=
  of_cell 0x1E#8 (.three .aslAbx) rfl rfl rfl (congrArg Instr.aslAbx (Machine.wordOf_bytes w))
theorem sloAbx (w : Word) : Statement (.sloAbx w) :=
  of_cell 0x1F#8 (.three .sloAbx) rfl rfl rfl (congrArg Instr.sloAbx (Machine.wordOf_bytes w))
theorem jsr (w : Word) : Statement (.jsr w) :=
  of_cell 0x20#8 (.three .jsr) rfl rfl rfl (congrArg Instr.jsr (Machine.wordOf_bytes w))
theorem andIzx (b : Byte) : Statement (.andIzx b) := of_cell 0x21#8 (.two .andIzx) rfl rfl rfl rfl
theorem kil22 : Statement .kil22 := of_cell 0x22#8 (.one .kil22) rfl rfl rfl rfl
theorem rlaIzx (b : Byte) : Statement (.rlaIzx b) := of_cell 0x23#8 (.two .rlaIzx) rfl rfl rfl rfl
theorem bitZp (b : Byte) : Statement (.bitZp b) := of_cell 0x24#8 (.two .bitZp) rfl rfl rfl rfl
theorem andZp (b : Byte) : Statement (.andZp b) := of_cell 0x25#8 (.two .andZp) rfl rfl rfl rfl
theorem rolZp (b : Byte) : Statement (.rolZp b) := of_cell 0x26#8 (.two .rolZp) rfl rfl rfl rfl
theorem rlaZp (b : Byte) : Statement (.rlaZp b) := of_cell 0x27#8 (.two .rlaZp) rfl rfl rfl rfl
theorem plp : Statement .plp := of_cell 0x28#8 (.one .plp) rfl rfl rfl rfl
theorem andImm (b : Byte) : Statement (.andImm b) := of_cell 0x29#8 (.two .andImm) rfl rfl rfl rfl
theorem rolAcc : Statement .rolAcc := of_cell 0x2A#8 (.one .rolAcc) rfl rfl rfl rfl
theorem anc2B (b : Byte) : Statement (.anc2B b) := of_cell 0x2B#8 (.two .anc2B) rfl rfl rfl rfl
theorem bitAbs (w : Word) : Statement (.bitAbs w) :=
  of_cell 0x2C#8 (.three .bitAbs) rfl rfl rfl (congrArg Instr.bitAbs (Machine.wordOf_bytes w))
theorem andAbs (w : Word) : Statement (.andAbs w) :=
  of_cell 0x2D#8 (.three .andAbs) rfl rfl rfl (congrArg Instr.andAbs (Machine.wordOf_bytes w))
theorem rolAbs (w : Word) : Statement (.rolAbs w) :=
  of_cell 0x2E#8 (.three .rolAbs) rfl rfl rfl (congrArg Instr.rolAbs (Machine.wordOf_bytes w))
theorem rlaAbs (w : Word) : Statement (.rlaAbs w) :=
  of_cell 0x2F#8 (.three .rlaAbs) rfl rfl rfl (congrArg Instr.rlaAbs (Machine.wordOf_bytes w))
theorem bmi (b : Byte) : Statement (.bmi b) := of_cell 0x30#8 (.two .bmi) rfl rfl rfl rfl
theorem andIzy (b : Byte) : Statement (.andIzy b) := of_cell 0x31#8 (.two .andIzy) rfl rfl rfl rfl
theorem kil32 : Statement .kil32 := of_cell 0x32#8 (.one .kil32) rfl rfl rfl rfl
theorem rlaIzy (b : Byte) : Statement (.rlaIzy b) := of_cell 0x33#8 (.two .rlaIzy) rfl rfl rfl rfl
theorem nop34 (b : Byte) : Statement (.nop34 b) := of_cell 0x34#8 (.two .nop34) rfl rfl rfl rfl
theorem andZpx (b : Byte) : Statement (.andZpx b) := of_cell 0x35#8 (.two .andZpx) rfl rfl rfl rfl
theorem rolZpx (b : Byte) : Statement (.rolZpx b) := of_cell 0x36#8 (.two .rolZpx) rfl rfl rfl rfl
theorem rlaZpx (b : Byte) : Statement (.rlaZpx b) := of_cell 0x37#8 (.two .rlaZpx) rfl rfl rfl rfl
theorem sec : Statement .sec := of_cell 0x38#8 (.one .sec) rfl rfl rfl rfl
theorem andAby (w : Word) : Statement (.andAby w) :=
  of_cell 0x39#8 (.three .andAby) rfl rfl rfl (congrArg Instr.andAby (Machine.wordOf_bytes w))
theorem nop3A : Statement .nop3A := of_cell 0x3A#8 (.one .nop3A) rfl rfl rfl rfl
theorem rlaAby (w : Word) : Statement (.rlaAby w) :=
  of_cell 0x3B#8 (.three .rlaAby) rfl rfl rfl (congrArg Instr.rlaAby (Machine.wordOf_bytes w))
theorem nop3C (w : Word) : Statement (.nop3C w) :=
  of_cell 0x3C#8 (.three .nop3C) rfl rfl rfl (congrArg Instr.nop3C (Machine.wordOf_bytes w))
theorem andAbx (w : Word) : Statement (.andAbx w) :=
  of_cell 0x3D#8 (.three .andAbx) rfl rfl rfl (congrArg Instr.andAbx (Machine.wordOf_bytes w))
theorem rolAbx (w : Word) : Statement (.rolAbx w) :=
  of_cell 0x3E#8 (.three .rolAbx) rfl rfl rfl (congrArg Instr.rolAbx (Machine.wordOf_bytes w))
theorem rlaAbx (w : Word) : Statement (.rlaAbx w) :=
  of_cell 0x3F#8 (.three .rlaAbx) rfl rfl rfl (congrArg Instr.rlaAbx (Machine.wordOf_bytes w))
theorem rti : Statement .rti := of_cell 0x40#8 (.one .rti) rfl rfl rfl rfl
theorem eorIzx (b : Byte) : Statement (.eorIzx b) := of_cell 0x41#8 (.two .eorIzx) rfl rfl rfl rfl
theorem kil42 : Statement .kil42 := of_cell 0x42#8 (.one .kil42) rfl rfl rfl rfl
theorem sreIzx (b : Byte) : Statement (.sreIzx b) := of_cell 0x43#8 (.two .sreIzx) rfl rfl rfl rfl
theorem nop44 (b : Byte) : Statement (.nop44 b) := of_cell 0x44#8 (.two .nop44) rfl rfl rfl rfl
theorem eorZp (b : Byte) : Statement (.eorZp b) := of_cell 0x45#8 (.two .eorZp) rfl rfl rfl rfl
theorem lsrZp (b : Byte) : Statement (.lsrZp b) := of_cell 0x46#8 (.two .lsrZp) rfl rfl rfl rfl
theorem sreZp (b : Byte) : Statement (.sreZp b) := of_cell 0x47#8 (.two .sreZp) rfl rfl rfl rfl
theorem pha : Statement .pha := of_cell 0x48#8 (.one .pha) rfl rfl rfl rfl
theorem eorImm (b : Byte) : Statement (.eorImm b) := of_cell 0x49#8 (.two .eorImm) rfl rfl rfl rfl
theorem lsrAcc : Statement .lsrAcc := of_cell 0x4A#8 (.one .lsrAcc) rfl rfl rfl rfl
theorem alr (b : Byte) : Statement (.alr b) := of_cell 0x4B#8 (.two .alr) rfl rfl rfl rfl
theorem jmpAbs (w : Word) : Statement (.jmpAbs w) :=
  of_cell 0x4C#8 (.three .jmpAbs) rfl rfl rfl (congrArg Instr.jmpAbs (Machine.wordOf_bytes w))
theorem eorAbs (w : Word) : Statement (.eorAbs w) :=
  of_cell 0x4D#8 (.three .eorAbs) rfl rfl rfl (congrArg Instr.eorAbs (Machine.wordOf_bytes w))
theorem lsrAbs (w : Word) : Statement (.lsrAbs w) :=
  of_cell 0x4E#8 (.three .lsrAbs) rfl rfl rfl (congrArg Instr.lsrAbs (Machine.wordOf_bytes w))
theorem sreAbs (w : Word) : Statement (.sreAbs w) :=
  of_cell 0x4F#8 (.three .sreAbs) rfl rfl rfl (congrArg Instr.sreAbs (Machine.wordOf_bytes w))
theorem bvc (b : Byte) : Statement (.bvc b) := of_cell 0x50#8 (.two .bvc) rfl rfl rfl rfl
theorem eorIzy (b : Byte) : Statement (.eorIzy b) := of_cell 0x51#8 (.two .eorIzy) rfl rfl rfl rfl
theorem kil52 : Statement .kil52 := of_cell 0x52#8 (.one .kil52) rfl rfl rfl rfl
theorem sreIzy (b : Byte) : Statement (.sreIzy b) := of_cell 0x53#8 (.two .sreIzy) rfl rfl rfl rfl
theorem nop54 (b : Byte) : Statement (.nop54 b) := of_cell 0x54#8 (.two .nop54) rfl rfl rfl rfl
theorem eorZpx (b : Byte) : Statement (.eorZpx b) := of_cell 0x55#8 (.two .eorZpx) rfl rfl rfl rfl
theorem lsrZpx (b : Byte) : Statement (.lsrZpx b) := of_cell 0x56#8 (.two .lsrZpx) rfl rfl rfl rfl
theorem sreZpx (b : Byte) : Statement (.sreZpx b) := of_cell 0x57#8 (.two .sreZpx) rfl rfl rfl rfl
theorem cli : Statement .cli := of_cell 0x58#8 (.one .cli) rfl rfl rfl rfl
theorem eorAby (w : Word) : Statement (.eorAby w) :=
  of_cell 0x59#8 (.three .eorAby) rfl rfl rfl (congrArg Instr.eorAby (Machine.wordOf_bytes w))
theorem nop5A : Statement .nop5A := of_cell 0x5A#8 (.one .nop5A) rfl rfl rfl rfl
theorem sreAby (w : Word) : Statement (.sreAby w) :=
  of_cell 0x5B#8 (.three .sreAby) rfl rfl rfl (congrArg Instr.sreAby (Machine.wordOf_bytes w))
theorem nop5C (w : Word) : Statement (.nop5C w) :=
  of_cell 0x5C#8 (.three .nop5C) rfl rfl rfl (congrArg Instr.nop5C (Machine.wordOf_bytes w))
theorem eorAbx (w : Word) : Statement (.eorAbx w) :=
  of_cell 0x5D#8 (.three .eorAbx) rfl rfl rfl (congrArg Instr.eorAbx (Machine.wordOf_bytes w))
theorem lsrAbx (w : Word) : Statement (.lsrAbx w) :=
  of_cell 0x5E#8 (.three .lsrAbx) rfl rfl rfl (congrArg Instr.lsrAbx (Machine.wordOf_bytes w))
theorem sreAbx (w : Word) : Statement (.sreAbx w) :=
  of_cell 0x5F#8 (.three .sreAbx) rfl rfl rfl (congrArg Instr.sreAbx (Machine.wordOf_bytes w))
theorem rts : Statement .rts := of_cell 0x60#8 (.one .rts) rfl rfl rfl rfl
theorem adcIzx (b : Byte) : Statement (.adcIzx b) := of_cell 0x61#8 (.two .adcIzx) rfl rfl rfl rfl
theorem kil62 : Statement .kil62 := of_cell 0x62#8 (.one .kil62) rfl rfl rfl rfl
theorem rraIzx (b : Byte) : Statement (.rraIzx b) := of_cell 0x63#8 (.two .rraIzx) rfl rfl rfl rfl
theorem nop64 (b : Byte) : Statement (.nop64 b) := of_cell 0x64#8 (.two .nop64) rfl rfl rfl rfl
theorem adcZp (b : Byte) : Statement (.adcZp b) := of_cell 0x65#8 (.two .adcZp) rfl rfl rfl rfl
theorem rorZp (b : Byte) : Statement (.rorZp b) := of_cell 0x66#8 (.two .rorZp) rfl rfl rfl rfl
theorem rraZp (b : Byte) : Statement (.rraZp b) := of_cell 0x67#8 (.two .rraZp) rfl rfl rfl rfl
theorem pla : Statement .pla := of_cell 0x68#8 (.one .pla) rfl rfl rfl rfl
theorem adcImm (b : Byte) : Statement (.adcImm b) := of_cell 0x69#8 (.two .adcImm) rfl rfl rfl rfl
theorem rorAcc : Statement .rorAcc := of_cell 0x6A#8 (.one .rorAcc) rfl rfl rfl rfl
theorem arr (b : Byte) : Statement (.arr b) := of_cell 0x6B#8 (.two .arr) rfl rfl rfl rfl
theorem jmpInd (w : Word) : Statement (.jmpInd w) :=
  of_cell 0x6C#8 (.three .jmpInd) rfl rfl rfl (congrArg Instr.jmpInd (Machine.wordOf_bytes w))
theorem adcAbs (w : Word) : Statement (.adcAbs w) :=
  of_cell 0x6D#8 (.three .adcAbs) rfl rfl rfl (congrArg Instr.adcAbs (Machine.wordOf_bytes w))
theorem rorAbs (w : Word) : Statement (.rorAbs w) :=
  of_cell 0x6E#8 (.three .rorAbs) rfl rfl rfl (congrArg Instr.rorAbs (Machine.wordOf_bytes w))
theorem rraAbs (w : Word) : Statement (.rraAbs w) :=
  of_cell 0x6F#8 (.three .rraAbs) rfl rfl rfl (congrArg Instr.rraAbs (Machine.wordOf_bytes w))
theorem bvs (b : Byte) : Statement (.bvs b) := of_cell 0x70#8 (.two .bvs) rfl rfl rfl rfl
theorem adcIzy (b : Byte) : Statement (.adcIzy b) := of_cell 0x71#8 (.two .adcIzy) rfl rfl rfl rfl
theorem kil72 : Statement .kil72 := of_cell 0x72#8 (.one .kil72) rfl rfl rfl rfl
theorem rraIzy (b : Byte) : Statement (.rraIzy b) := of_cell 0x73#8 (.two .rraIzy) rfl rfl rfl rfl
theorem nop74 (b : Byte) : Statement (.nop74 b) := of_cell 0x74#8 (.two .nop74) rfl rfl rfl rfl
theorem adcZpx (b : Byte) : Statement (.adcZpx b) := of_cell 0x75#8 (.two .adcZpx) rfl rfl rfl rfl
theorem rorZpx (b : Byte) : Statement (.rorZpx b) := of_cell 0x76#8 (.two .rorZpx) rfl rfl rfl rfl
theorem rraZpx (b : Byte) : Statement (.rraZpx b) := of_cell 0x77#8 (.two .rraZpx) rfl rfl rfl rfl
theorem sei : Statement .sei := of_cell 0x78#8 (.one .sei) rfl rfl rfl rfl
theorem adcAby (w : Word) : Statement (.adcAby w) :=
  of_cell 0x79#8 (.three .adcAby) rfl rfl rfl (congrArg Instr.adcAby (Machine.wordOf_bytes w))
theorem nop7A : Statement .nop7A := of_cell 0x7A#8 (.one .nop7A) rfl rfl rfl rfl
theorem rraAby (w : Word) : Statement (.rraAby w) :=
  of_cell 0x7B#8 (.three .rraAby) rfl rfl rfl (congrArg Instr.rraAby (Machine.wordOf_bytes w))
theorem nop7C (w : Word) : Statement (.nop7C w) :=
  of_cell 0x7C#8 (.three .nop7C) rfl rfl rfl (congrArg Instr.nop7C (Machine.wordOf_bytes w))
theorem adcAbx (w : Word) : Statement (.adcAbx w) :=
  of_cell 0x7D#8 (.three .adcAbx) rfl rfl rfl (congrArg Instr.adcAbx (Machine.wordOf_bytes w))
theorem rorAbx (w : Word) : Statement (.rorAbx w) :=
  of_cell 0x7E#8 (.three .rorAbx) rfl rfl rfl (congrArg Instr.rorAbx (Machine.wordOf_bytes w))
theorem rraAbx (w : Word) : Statement (.rraAbx w) :=
  of_cell 0x7F#8 (.three .rraAbx) rfl rfl rfl (congrArg Instr.rraAbx (Machine.wordOf_bytes w))
theorem nop80 (b : Byte) : Statement (.nop80 b) := of_cell 0x80#8 (.two .nop80) rfl rfl rfl rfl
theorem staIzx (b : Byte) : Statement (.staIzx b) := of_cell 0x81#8 (.two .staIzx) rfl rfl rfl rfl
theorem nop82 (b : Byte) : Statement (.nop82 b) := of_cell 0x82#8 (.two .nop82) rfl rfl rfl rfl
theorem saxIzx (b : Byte) : Statement (.saxIzx b) := of_cell 0x83#8 (.two .saxIzx) rfl rfl rfl rfl
theorem styZp (b : Byte) : Statement (.styZp b) := of_cell 0x84#8 (.two .styZp) rfl rfl rfl rfl
theorem staZp (b : Byte) : Statement (.staZp b) := of_cell 0x85#8 (.two .staZp) rfl rfl rfl rfl
theorem stxZp (b : Byte) : Statement (.stxZp b) := of_cell 0x86#8 (.two .stxZp) rfl rfl rfl rfl
theorem saxZp (b : Byte) : Statement (.saxZp b) := of_cell 0x87#8 (.two .saxZp) rfl rfl rfl rfl
theorem dey : Statement .dey := of_cell 0x88#8 (.one .dey) rfl rfl rfl rfl
theorem nop89 (b : Byte) : Statement (.nop89 b) := of_cell 0x89#8 (.two .nop89) rfl rfl rfl rfl
theorem txa : Statement .txa := of_cell 0x8A#8 (.one .txa) rfl rfl rfl rfl
theorem xaa (b : Byte) : Statement (.xaa b) := of_cell 0x8B#8 (.two .xaa) rfl rfl rfl rfl
theorem styAbs (w : Word) : Statement (.styAbs w) :=
  of_cell 0x8C#8 (.three .styAbs) rfl rfl rfl (congrArg Instr.styAbs (Machine.wordOf_bytes w))
theorem staAbs (w : Word) : Statement (.staAbs w) :=
  of_cell 0x8D#8 (.three .staAbs) rfl rfl rfl (congrArg Instr.staAbs (Machine.wordOf_bytes w))
theorem stxAbs (w : Word) : Statement (.stxAbs w) :=
  of_cell 0x8E#8 (.three .stxAbs) rfl rfl rfl (congrArg Instr.stxAbs (Machine.wordOf_bytes w))
theorem saxAbs (w : Word) : Statement (.saxAbs w) :=
  of_cell 0x8F#8 (.three .saxAbs) rfl rfl rfl (congrArg Instr.saxAbs (Machine.wordOf_bytes w))
theorem bcc (b : Byte) : Statement (.bcc b) := of_cell 0x90#8 (.two .bcc) rfl rfl rfl rfl
theorem staIzy (b : Byte) : Statement (.staIzy b) := of_cell 0x91#8 (.two .staIzy) rfl rfl rfl rfl
theorem kil92 : Statement .kil92 := of_cell 0x92#8 (.one .kil92) rfl rfl rfl rfl
theorem ahxIzy (b : Byte) : Statement (.ahxIzy b) := of_cell 0x93#8 (.two .ahxIzy) rfl rfl rfl rfl
theorem styZpx (b : Byte) : Statement (.styZpx b) := of_cell 0x94#8 (.two .styZpx) rfl rfl rfl rfl
theorem staZpx (b : Byte) : Statement (.staZpx b) := of_cell 0x95#8 (.two .staZpx) rfl rfl rfl rfl
theorem stxZpy (b : Byte) : Statement (.stxZpy b) := of_cell 0x96#8 (.two .stxZpy) rfl rfl rfl rfl
theorem saxZpy (b : Byte) : Statement (.saxZpy b) := of_cell 0x97#8 (.two .saxZpy) rfl rfl rfl rfl
theorem tya : Statement .tya := of_cell 0x98#8 (.one .tya) rfl rfl rfl rfl
theorem staAby (w : Word) : Statement (.staAby w) :=
  of_cell 0x99#8 (.three .staAby) rfl rfl rfl (congrArg Instr.staAby (Machine.wordOf_bytes w))
theorem txs : Statement .txs := of_cell 0x9A#8 (.one .txs) rfl rfl rfl rfl
theorem tas (w : Word) : Statement (.tas w) :=
  of_cell 0x9B#8 (.three .tas) rfl rfl rfl (congrArg Instr.tas (Machine.wordOf_bytes w))
theorem shy (w : Word) : Statement (.shy w) :=
  of_cell 0x9C#8 (.three .shy) rfl rfl rfl (congrArg Instr.shy (Machine.wordOf_bytes w))
theorem staAbx (w : Word) : Statement (.staAbx w) :=
  of_cell 0x9D#8 (.three .staAbx) rfl rfl rfl (congrArg Instr.staAbx (Machine.wordOf_bytes w))
theorem shx (w : Word) : Statement (.shx w) :=
  of_cell 0x9E#8 (.three .shx) rfl rfl rfl (congrArg Instr.shx (Machine.wordOf_bytes w))
theorem ahxAby (w : Word) : Statement (.ahxAby w) :=
  of_cell 0x9F#8 (.three .ahxAby) rfl rfl rfl (congrArg Instr.ahxAby (Machine.wordOf_bytes w))
theorem ldyImm (b : Byte) : Statement (.ldyImm b) := of_cell 0xA0#8 (.two .ldyImm) rfl rfl rfl rfl
theorem ldaIzx (b : Byte) : Statement (.ldaIzx b) := of_cell 0xA1#8 (.two .ldaIzx) rfl rfl rfl rfl
theorem ldxImm (b : Byte) : Statement (.ldxImm b) := of_cell 0xA2#8 (.two .ldxImm) rfl rfl rfl rfl
theorem laxIzx (b : Byte) : Statement (.laxIzx b) := of_cell 0xA3#8 (.two .laxIzx) rfl rfl rfl rfl
theorem ldyZp (b : Byte) : Statement (.ldyZp b) := of_cell 0xA4#8 (.two .ldyZp) rfl rfl rfl rfl
theorem ldaZp (b : Byte) : Statement (.ldaZp b) := of_cell 0xA5#8 (.two .ldaZp) rfl rfl rfl rfl
theorem ldxZp (b : Byte) : Statement (.ldxZp b) := of_cell 0xA6#8 (.two .ldxZp) rfl rfl rfl rfl
theorem laxZp (b : Byte) : Statement (.laxZp b) := of_cell 0xA7#8 (.two .laxZp) rfl rfl rfl rfl
theorem tay : Statement .tay := of_cell 0xA8#8 (.one .tay) rfl rfl rfl rfl
theorem ldaImm (b : Byte) : Statement (.ldaImm b) := of_cell 0xA9#8 (.two .ldaImm) rfl rfl rfl rfl
theorem tax : Statement .tax := of_cell 0xAA#8 (.one .tax) rfl rfl rfl rfl
theorem lxa (b : Byte) : Statement (.lxa b) := of_cell 0xAB#8 (.two .lxa) rfl rfl rfl rfl
theorem ldyAbs (w : Word) : Statement (.ldyAbs w) :=
  of_cell 0xAC#8 (.three .ldyAbs) rfl rfl rfl (congrArg Instr.ldyAbs (Machine.wordOf_bytes w))
theorem ldaAbs (w : Word) : Statement (.ldaAbs w) :=
  of_cell 0xAD#8 (.three .ldaAbs) rfl rfl rfl (congrArg Instr.ldaAbs (Machine.wordOf_bytes w))
theorem ldxAbs (w : Word) : Statement (.ldxAbs w) :=
  of_cell 0xAE#8 (.three .ldxAbs) rfl rfl rfl (congrArg Instr.ldxAbs (Machine.wordOf_bytes w))
theorem laxAbs (w : Word) : Statement (.laxAbs w) :=
  of_cell 0xAF#8 (.three .laxAbs) rfl rfl rfl (congrArg Instr.laxAbs (Machine.wordOf_bytes w))
theorem bcs (b : Byte) : Statement (.bcs b) := of_cell 0xB0#8 (.two .bcs) rfl rfl rfl rfl
theorem ldaIzy (b : Byte) : Statement (.ldaIzy b) := of_cell 0xB1#8 (.two .ldaIzy) rfl rfl rfl rfl
theorem kilB2 : Statement .kilB2 := of_cell 0xB2#8 (.one .kilB2) rfl rfl rfl rfl
theorem laxIzy (b : Byte) : Statement (.laxIzy b) := of_cell 0xB3#8 (.two .laxIzy) rfl rfl rfl rfl
theorem ldyZpx (b : Byte) : Statement (.ldyZpx b) := of_cell 0xB4#8 (.two .ldyZpx) rfl rfl rfl rfl
theorem ldaZpx (b : Byte) : Statement (.ldaZpx b) := of_cell 0xB5#8 (.two .ldaZpx) rfl rfl rfl rfl
theorem ldxZpy (b : Byte) : Statement (.ldxZpy b) := of_cell 0xB6#8 (.two .ldxZpy) rfl rfl rfl rfl
theorem laxZpy (b : Byte) : Statement (.laxZpy b) := of_cell 0xB7#8 (.two .laxZpy) rfl rfl rfl rfl
theorem clv : Statement .clv := of_cell 0xB8#8 (.one .clv) rfl rfl rfl rfl
theorem ldaAby (w : Word) : Statement (.ldaAby w) :=
  of_cell 0xB9#8 (.three .ldaAby) rfl rfl rfl (congrArg Instr.ldaAby (Machine.wordOf_bytes w))
theorem tsx : Statement .tsx := of_cell 0xBA#8 (.one .tsx) rfl rfl rfl rfl
theorem las (w : Word) : Statement (.las w) :=
  of_cell 0xBB#8 (.three .las) rfl rfl rfl (congrArg Instr.las (Machine.wordOf_bytes w))
theorem ldyAbx (w : Word) : Statement (.ldyAbx w) :=
  of_cell 0xBC#8 (.three .ldyAbx) rfl rfl rfl (congrArg Instr.ldyAbx (Machine.wordOf_bytes w))
theorem ldaAbx (w : Word) : Statement (.ldaAbx w) :=
  of_cell 0xBD#8 (.three .ldaAbx) rfl rfl rfl (congrArg Instr.ldaAbx (Machine.wordOf_bytes w))
theorem ldxAby (w : Word) : Statement (.ldxAby w) :=
  of_cell 0xBE#8 (.three .ldxAby) rfl rfl rfl (congrArg Instr.ldxAby (Machine.wordOf_bytes w))
theorem laxAby (w : Word) : Statement (.laxAby w) :=
  of_cell 0xBF#8 (.three .laxAby) rfl rfl rfl (congrArg Instr.laxAby (Machine.wordOf_bytes w))
theorem cpyImm (b : Byte) : Statement (.cpyImm b) := of_cell 0xC0#8 (.two .cpyImm) rfl rfl rfl rfl
theorem cmpIzx (b : Byte) : Statement (.cmpIzx b) := of_cell 0xC1#8 (.two .cmpIzx) rfl rfl rfl rfl
theorem nopC2 (b : Byte) : Statement (.nopC2 b) := of_cell 0xC2#8 (.two .nopC2) rfl rfl rfl rfl
theorem dcpIzx (b : Byte) : Statement (.dcpIzx b) := of_cell 0xC3#8 (.two .dcpIzx) rfl rfl rfl rfl
theorem cpyZp (b : Byte) : Statement (.cpyZp b) := of_cell 0xC4#8 (.two .cpyZp) rfl rfl rfl rfl
theorem cmpZp (b : Byte) : Statement (.cmpZp b) := of_cell 0xC5#8 (.two .cmpZp) rfl rfl rfl rfl
theorem decZp (b : Byte) : Statement (.decZp b) := of_cell 0xC6#8 (.two .decZp) rfl rfl rfl rfl
theorem dcpZp (b : Byte) : Statement (.dcpZp b) := of_cell 0xC7#8 (.two .dcpZp) rfl rfl rfl rfl
theorem iny : Statement .iny := of_cell 0xC8#8 (.one .iny) rfl rfl rfl rfl
theorem cmpImm (b : Byte) : Statement (.cmpImm b) := of_cell 0xC9#8 (.two .cmpImm) rfl rfl rfl rfl
theorem dex : Statement .dex := of_cell 0xCA#8 (.one .dex) rfl rfl rfl rfl
theorem axs (b : Byte) : Statement (.axs b) := of_cell 0xCB#8 (.two .axs) rfl rfl rfl rfl
theorem cpyAbs (w : Word) : Statement (.cpyAbs w) :=
  of_cell 0xCC#8 (.three .cpyAbs) rfl rfl rfl (congrArg Instr.cpyAbs (Machine.wordOf_bytes w))
theorem cmpAbs (w : Word) : Statement (.cmpAbs w) :=
  of_cell 0xCD#8 (.three .cmpAbs) rfl rfl rfl (congrArg Instr.cmpAbs (Machine.wordOf_bytes w))
theorem decAbs (w : Word) : Statement (.decAbs w) :=
  of_cell 0xCE#8 (.three .decAbs) rfl rfl rfl (congrArg Instr.decAbs (Machine.wordOf_bytes w))
theorem dcpAbs (w : Word) : Statement (.dcpAbs w) :=
  of_cell 0xCF#8 (.three .dcpAbs) rfl rfl rfl (congrArg Instr.dcpAbs (Machine.wordOf_bytes w))
theorem bne (b : Byte) : Statement (.bne b) := of_cell 0xD0#8 (.two .bne) rfl rfl rfl rfl
theorem cmpIzy (b : Byte) : Statement (.cmpIzy b) := of_cell 0xD1#8 (.two .cmpIzy) rfl rfl rfl rfl
theorem kilD2 : Statement .kilD2 := of_cell 0xD2#8 (.one .kilD2) rfl rfl rfl rfl
theorem dcpIzy (b : Byte) : Statement (.dcpIzy b) := of_cell 0xD3#8 (.two .dcpIzy) rfl rfl rfl rfl
theorem nopD4 (b : Byte) : Statement (.nopD4 b) := of_cell 0xD4#8 (.two .nopD4) rfl rfl rfl rfl
theorem cmpZpx (b : Byte) : Statement (.cmpZpx b) := of_cell 0xD5#8 (.two .cmpZpx) rfl rfl rfl rfl
theorem decZpx (b : Byte) : Statement (.decZpx b) := of_cell 0xD6#8 (.two .decZpx) rfl rfl rfl rfl
theorem dcpZpx (b : Byte) : Statement (.dcpZpx b) := of_cell 0xD7#8 (.two .dcpZpx) rfl rfl rfl rfl
theorem cld : Statement .cld := of_cell 0xD8#8 (.one .cld) rfl rfl rfl rfl
theorem cmpAby (w : Word) : Statement (.cmpAby w) :=
  of_cell 0xD9#8 (.three .cmpAby) rfl rfl rfl (congrArg Instr.cmpAby (Machine.wordOf_bytes w))
theorem nopDA : Statement .nopDA := of_cell 0xDA#8 (.one .nopDA) rfl rfl rfl rfl
theorem dcpAby (w : Word) : Statement (.dcpAby w) :=
  of_cell 0xDB#8 (.three .dcpAby) rfl rfl rfl (congrArg Instr.dcpAby (Machine.wordOf_bytes w))
theorem nopDC (w : Word) : Statement (.nopDC w) :=
  of_cell 0xDC#8 (.three .nopDC) rfl rfl rfl (congrArg Instr.nopDC (Machine.wordOf_bytes w))
theorem cmpAbx (w : Word) : Statement (.cmpAbx w) :=
  of_cell 0xDD#8 (.three .cmpAbx) rfl rfl rfl (congrArg Instr.cmpAbx (Machine.wordOf_bytes w))
theorem decAbx (w : Word) : Statement (.decAbx w) :=
  of_cell 0xDE#8 (.three .decAbx) rfl rfl rfl (congrArg Instr.decAbx (Machine.wordOf_bytes w))
theorem dcpAbx (w : Word) : Statement (.dcpAbx w) :=
  of_cell 0xDF#8 (.three .dcpAbx) rfl rfl rfl (congrArg Instr.dcpAbx (Machine.wordOf_bytes w))
theorem cpxImm (b : Byte) : Statement (.cpxImm b) := of_cell 0xE0#8 (.two .cpxImm) rfl rfl rfl rfl
theorem sbcIzx (b : Byte) : Statement (.sbcIzx b) := of_cell 0xE1#8 (.two .sbcIzx) rfl rfl rfl rfl
theorem nopE2 (b : Byte) : Statement (.nopE2 b) := of_cell 0xE2#8 (.two .nopE2) rfl rfl rfl rfl
theorem iscIzx (b : Byte) : Statement (.iscIzx b) := of_cell 0xE3#8 (.two .iscIzx) rfl rfl rfl rfl
theorem cpxZp (b : Byte) : Statement (.cpxZp b) := of_cell 0xE4#8 (.two .cpxZp) rfl rfl rfl rfl
theorem sbcZp (b : Byte) : Statement (.sbcZp b) := of_cell 0xE5#8 (.two .sbcZp) rfl rfl rfl rfl
theorem incZp (b : Byte) : Statement (.incZp b) := of_cell 0xE6#8 (.two .incZp) rfl rfl rfl rfl
theorem iscZp (b : Byte) : Statement (.iscZp b) := of_cell 0xE7#8 (.two .iscZp) rfl rfl rfl rfl
theorem inx : Statement .inx := of_cell 0xE8#8 (.one .inx) rfl rfl rfl rfl
theorem sbcImm (b : Byte) : Statement (.sbcImm b) := of_cell 0xE9#8 (.two .sbcImm) rfl rfl rfl rfl
theorem nop : Statement .nop := of_cell 0xEA#8 (.one .nop) rfl rfl rfl rfl
theorem sbcEB (b : Byte) : Statement (.sbcEB b) := of_cell 0xEB#8 (.two .sbcEB) rfl rfl rfl rfl
theorem cpxAbs (w : Word) : Statement (.cpxAbs w) :=
  of_cell 0xEC#8 (.three .cpxAbs) rfl rfl rfl (congrArg Instr.cpxAbs (Machine.wordOf_bytes w))
theorem sbcAbs (w : Word) : Statement (.sbcAbs w) :=
  of_cell 0xED#8 (.three .sbcAbs) rfl rfl rfl (congrArg Instr.sbcAbs (Machine.wordOf_bytes w))
theorem incAbs (w : Word) : Statement (.incAbs w) :=
  of_cell 0xEE#8 (.three .incAbs) rfl rfl rfl (congrArg Instr.incAbs (Machine.wordOf_bytes w))
theorem iscAbs (w : Word) : Statement (.iscAbs w) :=
  of_cell 0xEF#8 (.three .iscAbs) rfl rfl rfl (congrArg Instr.iscAbs (Machine.wordOf_bytes w))
theorem beq (b : Byte) : Statement (.beq b) := of_cell 0xF0#8 (.two .beq) rfl rfl rfl rfl
theorem sbcIzy (b : Byte) : Statement (.sbcIzy b) := of_cell 0xF1#8 (.two .sbcIzy) rfl rfl rfl rfl
theorem kilF2 : Statement .kilF2 := of_cell 0xF2#8 (.one .kilF2) rfl rfl rfl rfl
theorem iscIzy (b : Byte) : Statement (.iscIzy b) := of_cell 0xF3#8 (.two .iscIzy) rfl rfl rfl rfl
theorem nopF4 (b : Byte) : Statement (.nopF4 b) := of_cell 0xF4#8 (.two .nopF4) rfl rfl rfl rfl
theorem sbcZpx (b : Byte) : Statement (.sbcZpx b) := of_cell 0xF5#8 (.two .sbcZpx) rfl rfl rfl rfl
theorem incZpx (b : Byte) : Statement (.incZpx b) := of_cell 0xF6#8 (.two .incZpx) rfl rfl rfl rfl
theorem iscZpx (b : Byte) : Statement (.iscZpx b) := of_cell 0xF7#8 (.two .iscZpx) rfl rfl rfl rfl
theorem sed : Statement .sed := of_cell 0xF8#8 (.one .sed) rfl rfl rfl rfl
theorem sbcAby (w : Word) : Statement (.sbcAby w) :=
  of_cell 0xF9#8 (.three .sbcAby) rfl rfl rfl (congrArg Instr.sbcAby (Machine.wordOf_bytes w))
theorem nopFA : Statement .nopFA := of_cell 0xFA#8 (.one .nopFA) rfl rfl rfl rfl
theorem iscAby (w : Word) : Statement (.iscAby w) :=
  of_cell 0xFB#8 (.three .iscAby) rfl rfl rfl (congrArg Instr.iscAby (Machine.wordOf_bytes w))
theorem nopFC (w : Word) : Statement (.nopFC w) :=
  of_cell 0xFC#8 (.three .nopFC) rfl rfl rfl (congrArg Instr.nopFC (Machine.wordOf_bytes w))
theorem sbcAbx (w : Word) : Statement (.sbcAbx w) :=
  of_cell 0xFD#8 (.three .sbcAbx) rfl rfl rfl (congrArg Instr.sbcAbx (Machine.wordOf_bytes w))
theorem incAbx (w : Word) : Statement (.incAbx w) :=
  of_cell 0xFE#8 (.three .incAbx) rfl rfl rfl (congrArg Instr.incAbx (Machine.wordOf_bytes w))
theorem iscAbx (w : Word) : Statement (.iscAbx w) :=
  of_cell 0xFF#8 (.three .iscAbx) rfl rfl rfl (congrArg Instr.iscAbx (Machine.wordOf_bytes w))

end Sys2Proof.Laws.Length
end

