-- ==== Sys2Proof/Laws/PowerOn.lean ====
section
/-! SUPPORT. The argument POWER_ON_RAM: the memories of given contents, what they read, their form, and the part
of a memory below an index. -/

namespace Sys2Proof.Machine

/-- A memory of bytes reads the bytes. -/
theorem Memory.read_ofBytes (bs : List Byte) : ∀ k i : Nat,
    Memory.read (Memory.ofBytes k bs) (k + i) = bs.getD i 0x00#8 := by
  induction bs with
  | nil => intro k i; rfl
  | cons b bs ih =>
    intro k i
    unfold Memory.ofBytes
    cases i with
    | zero =>
      split
      · rename_i h
        have e : Memory.read (Memory.ofBytes (k + 1) bs) (k + 0) = Config.unlistedByte :=
          Cells.read_below (Memory.ofBytes_wfAbove bs (k + 1) (some k) (by intro j hj; cases hj; omega)) (le_refl _)
        rw [e, h]; rfl
      · simp [Memory.read, Cells.read]
    | succ i =>
      have e := ih (k + 1) i
      rw [show k + (i + 1) = k + 1 + i by omega]
      split
      · rw [e]; rfl
      · rw [← show (b :: bs).getD (i + 1) 0x00#8 = bs.getD i 0x00#8 from rfl] at e
        rw [← e]
        simp only [Memory.read, Cells.read]
        rw [if_neg (by omega), if_neg (by omega)]

/-- The indices of a memory of bytes are those of the bytes. -/
theorem Memory.ofBytes_indices (bs : List Byte) : ∀ (k : Nat), ∀ c ∈ Memory.ofBytes k bs, c.1 < k + bs.length := by
  induction bs with
  | nil => intro k c h; cases h
  | cons b bs ih =>
    intro k c h
    have key : c ∈ Memory.ofBytes (k + 1) bs → c.1 < k + (b :: bs).length := fun g => by
      have := ih (k + 1) c g
      simp only [List.length_cons]; omega
    unfold Memory.ofBytes at h
    split at h
    · exact key h
    · rcases List.mem_cons.mp h with g | g
      · rw [g]; simp only [List.length_cons]; omega
      · exact key g

/-- The memory of contents is in form and of the size of its RAM. -/
theorem ramOf_ok (contents : Ram → Nat → Byte) (r : Ram) : Memory.ok r.size (ramOf contents r) := by
  unfold ramOf
  exact ⟨Memory.ofBytes_wf _ _, fun c h => by simpa using Memory.ofBytes_indices _ 0 c h⟩

/-- The memory of contents reads the contents. -/
theorem read_ramOf (contents : Ram → Nat → Byte) {r : Ram} {k : Nat} (h : k < r.size) :
    Memory.read (ramOf contents r) k = contents r k := by
  have e := Memory.read_ofBytes ((List.range r.size).map (contents r)) 0 k
  rw [Nat.zero_add] at e
  rw [ramOf, e, List.getD_eq_getElem?_getD]
  simp [h]

/-- Contents of zeros list nothing. -/
theorem ramOf_zero (r : Ram) : ramOf (fun _ _ => 0x00#8) r = [] := by
  have key : ∀ (bs : List Byte), (∀ b ∈ bs, b = Config.unlistedByte) → ∀ k, Memory.ofBytes k bs = [] := by
    intro bs
    induction bs with
    | nil => intro _ k; rfl
    | cons b bs ih =>
      intro h k
      unfold Memory.ofBytes
      rw [if_pos (h b (List.mem_cons_self ..))]
      exact ih (fun c hc => h c (List.mem_cons_of_mem _ hc)) _
  unfold ramOf
  exact key _ (fun b h => by obtain ⟨_, _, e⟩ := List.mem_map.mp h; exact e.symm) 0

/-- The memories of any contents are in form and of their size. -/
theorem powerOnOf_ok (contents : Ram → Nat → Byte) : (powerOnOf contents).Ok where
  work := ramOf_ok contents .work
  oam := ramOf_ok contents .oam
  palette := ramOf_ok contents .palette
  nametable := ramOf_ok contents .nametable
  character := ramOf_ok contents .character
  program := ramOf_ok contents .program

/-- All 0x00 is the default. -/
theorem powerOnOf_zero : powerOnOf (fun _ _ => 0x00#8) = PowerOn.default := by
  simp only [powerOnOf, ramOf_zero, PowerOn.default]

/-- Cells below an index keep the canonical form. -/
theorem Cells.wfAbove_filter {α : Type} [DecidableEq α] {d : α} (q : Nat × α → Bool) {m : List (Nat × α)} :
    ∀ {b : Option Nat}, Cells.wfAbove d b m = true → Cells.wfAbove d b (m.filter q) = true := by
  have lower : ∀ {m : List (Nat × α)} {b : Option Nat} {j : Nat}, (∀ i, b = some i → i < j) →
      Cells.wfAbove d (some j) m = true → Cells.wfAbove d b m = true := by
    intro m b j hb h
    cases m with
    | nil => cases b <;> rfl
    | cons c m =>
      obtain ⟨k, u⟩ := c
      simp only [Cells.wfAbove, Bool.and_eq_true, decide_eq_true_eq] at h
      cases b with
      | none => simp [Cells.wfAbove, h.1.2, h.2]
      | some i =>
        have := hb i rfl
        simp only [Cells.wfAbove, Bool.and_eq_true, decide_eq_true_eq]
        exact ⟨⟨by omega, h.1.2⟩, h.2⟩
  induction m with
  | nil => intro b h; exact h
  | cons c m ih =>
    intro b h
    obtain ⟨j, u⟩ := c
    cases b with
    | none =>
      simp only [Cells.wfAbove, Bool.and_eq_true, decide_eq_true_eq] at h
      rw [List.filter_cons]
      split
      · simp [Cells.wfAbove, h.1, ih h.2]
      · exact lower (by intro i hi; cases hi) (ih h.2)
    | some i =>
      simp only [Cells.wfAbove, Bool.and_eq_true, decide_eq_true_eq] at h
      rw [List.filter_cons]
      split
      · simp [Cells.wfAbove, h.1.1, h.1.2, ih h.2]
      · exact lower (by intro k hk; cases hk; exact h.1.1) (ih h.2)

/-- The part of a memory below an index is in form and of that size. -/
theorem Memory.ok_below {m : Memory} (n : Nat) (h : Memory.wf m = true) : Memory.ok n (Memory.below n m) :=
  ⟨Cells.wfAbove_filter _ h, fun c hc => by simpa [Memory.below] using (List.mem_filter.mp hc).2⟩

/-- The part of a memory below an index reads as the memory there. -/
theorem Memory.read_below {m : Memory} {n k : Nat} (h : Memory.wf m = true) (hk : k < n) :
    Memory.read (Memory.below n m) k = Memory.read m k := by
  have key : ∀ (m : Memory) (b : Option Nat), Cells.wfAbove Config.unlistedByte b m = true →
      Cells.read Config.unlistedByte (m.filter fun c => decide (c.1 < n)) k =
        Cells.read Config.unlistedByte m k := by
    intro m
    induction m with
    | nil => intro b _; rfl
    | cons c m ih =>
      intro b hb
      obtain ⟨j, u⟩ := c
      have hj : Cells.wfAbove Config.unlistedByte (some j) m = true := by
        cases b with
        | none => simp only [Cells.wfAbove, Bool.and_eq_true] at hb; exact hb.2
        | some i => simp only [Cells.wfAbove, Bool.and_eq_true] at hb; exact hb.2
      rw [List.filter_cons]
      by_cases hn : j < n
      · rw [if_pos (by simpa using hn)]
        simp only [Cells.read, ih _ hj]
      · have h1 : k ≠ j := by omega
        have h2 : k < j := by omega
        rw [if_neg (by simpa using hn), ih _ hj, Cells.read_below hj (by omega)]
        simp [Cells.read, h1, h2]
  exact key m none h

end Sys2Proof.Machine
end

