-- ==== Sys2Proof/Laws/Reset.lean ====
section
/-! SUPPORT. What a reset answers, as one expression, and that it leaves every unit in its ranges. -/

namespace Sys2Proof.Machine

/-- The state a reset answers: the vector is read from the bus after the mapper's reset, without an effect. -/
theorem resetWith_eq (hard : Bool) (c : Cartridge) (s : State) :
    resetWith hard c s =
      let t : State :=
        { State.reset with
          a := if hard then 0#8 else s.a
          x := if hard then 0#8 else s.x
          y := if hard then 0#8 else s.y
          ram := if hard then s.args.powerOn.work else s.ram
          ppu := if hard then Ppu.hardReset s.args.powerOn else Ppu.softReset s.args.softReset s.ppu
          cart := some (c.reset s.args.powerOn hard)
          args := s.args }
      { t with pc := pairAt t 0xFFFC#16 0xFFFD#16 } := by
  unfold resetWith resetTarget
  dsimp only
  rw [show resetVector + 1#16 = 0xFFFD#16 from rfl,
    busReadWord_quiet (by unfold ReadEffectAddress resetVector; decide) (by unfold ReadEffectAddress; decide)]
  rfl

theorem Memory.ok_nil (n : Nat) : Memory.ok n [] := ⟨rfl, by simp⟩

theorem Ppu.Ok.hardReset {p : PowerOn} (h : p.Ok) : (Ppu.hardReset p).Ok :=
  ⟨Nat.zero_le _, Nat.zero_le _, Nat.zero_le _, h.oam, h.palette, Memory.ok_nil _, Memory.ok_nil _, Memory.ok_nil _, rfl,
    by intro c hc; cases hc⟩

theorem Ppu.Ok.softReset {p : Ppu} (h : p.Ok) (r : SoftReset) : (Ppu.softReset r p).Ok := by
  cases r
  · exact ⟨Nat.zero_le _, Nat.zero_le _, Nat.zero_le _, h.oam, h.palette, Memory.ok_nil _, Memory.ok_nil _, Memory.ok_nil _,
      h.frameBuffer⟩
  · exact ⟨Nat.zero_le _, Nat.zero_le _, Nat.zero_le _, Memory.ok_nil _, Memory.ok_nil _, Memory.ok_nil _, Memory.ok_nil _,
      Memory.ok_nil _, rfl, by intro c hc; cases hc⟩

theorem Apu.Ok.reset : Apu.reset.Ok :=
  ⟨by decide, ⟨by decide, by decide, by decide, by decide⟩, ⟨by decide, by decide, by decide, by decide⟩,
    ⟨by decide, by decide⟩, ⟨by decide, by decide, by decide, by decide⟩,
    ⟨by decide, by decide, by decide, by decide, by decide, by decide, by decide⟩, by decide⟩

theorem MapperRegs.Ok.reset (m : MapperRegs) : m.reset.Ok := by
  cases m <;> first | trivial | exact Memory.ok_nil _ | (show (0 : Nat) ≤ 4; omega)

theorem Cartridge.Ok.reset {c : Cartridge} (h : c.Ok) {p : PowerOn} (hp : p.Ok) (hard : Bool) :
    (c.reset p hard).Ok := by
  cases hard
  · exact ⟨h.image, h.prgRam, h.chrRam, h.ntRam, MapperRegs.Ok.reset _⟩
  · refine ⟨h.image, ?_, hp.character, Memory.ok_below _ hp.nametable.1, MapperRegs.Ok.reset _⟩
    show Memory.ok _ (if c.header.battery then c.prgRam else p.program)
    split
    · exact h.prgRam
    · exact hp.program

end Sys2Proof.Machine
end

