-- ==== Sys2Proof/Laws/SavedState.lean ====
section
/-! SUPPORT. Saved states: when one is accepted, what it leaves, and which error answers for what (R586, R592). -/

namespace Sys2Proof.Machine

@[simp] theorem getState_content (s : State) : (getState s).content = s := rfl
@[simp] theorem getState_size (s : State) : (getState s).size = Config.stateLength s := rfl
@[simp] theorem getState_preamble (s : State) : (getState s).preamble = preambleOf s := rfl
@[simp] theorem preambleOf_contents (s : State) : (preambleOf s).contents = contentsOf s.cart := rfl
@[simp] theorem preambleOf_header (s : State) : (preambleOf s).header = headerIn s.cart := rfl
@[simp] theorem preambleOf_mapperVersion (s : State) : (preambleOf s).mapperVersion = mapperVersionOf s.cart := rfl

/-- A value disagrees exactly when it, or that of the cartridge carried, is not that of the cartridge loaded. -/
theorem SavedState.differs_iff {α : Type} [DecidableEq α] (saved : SavedState) (s : State) (stored : α)
    (f : Option Cartridge → α) :
    saved.differs s stored f = true ↔ stored ≠ f s.cart ∨ f saved.content.cart ≠ f s.cart := by
  simp [SavedState.differs]

/-- A saved state is accepted exactly when every part of its preamble agrees, and then it replaces the whole state
but the machine's arguments (R586). -/
theorem setState_ok (saved : SavedState) (s t : State) :
    setState saved s = .ok t ↔
      saved.preamble.magic = Config.stateMagic ∧ saved.preamble.version = Config.stateVersion ∧
      (saved.preamble.length = saved.size ∧ saved.size = Config.stateLength saved.content) ∧
      (saved.preamble.contents = contentsOf s.cart ∧ contentsOf saved.content.cart = contentsOf s.cart) ∧
      (saved.preamble.header = headerIn s.cart ∧ headerIn saved.content.cart = headerIn s.cart) ∧
      (saved.preamble.mapperVersion = mapperVersionOf s.cart ∧
        mapperVersionOf saved.content.cart = mapperVersionOf s.cart) ∧
      t = { saved.content with args := s.args } := by
  unfold setState
  dsimp only
  simp only [SavedState.differs_iff]
  split_ifs with h1 h2 h3 h4 h5 h6
  · exact ⟨fun e => (nomatch e), fun e => absurd e.1 h1⟩
  · exact ⟨fun e => (nomatch e), fun e => absurd e.2.1 h2⟩
  · exact ⟨fun e => (nomatch e), fun e => absurd e.2.2.1.1 (h3.resolve_right (not_not.mpr e.2.2.1.2))⟩
  · exact ⟨fun e => (nomatch e), fun e => absurd e.2.2.2.1.1 (h4.resolve_right (not_not.mpr e.2.2.2.1.2))⟩
  · exact ⟨fun e => (nomatch e), fun e => absurd e.2.2.2.2.1.1 (h5.resolve_right (not_not.mpr e.2.2.2.2.1.2))⟩
  · exact ⟨fun e => (nomatch e), fun e => absurd e.2.2.2.2.2.1.1 (h6.resolve_right (not_not.mpr e.2.2.2.2.2.1.2))⟩
  · simp only [not_or, not_not] at h1 h2 h3 h4 h5 h6
    exact ⟨fun e => ⟨h1, h2, h3, h4, h5, h6, by injection e with e; exact e.symm⟩,
      fun e => by rw [e.2.2.2.2.2.2]⟩

/-- What one machine saves and another, or the same one, loads: accepted exactly on the same cartridge. -/
theorem setState_getState (s u : State) :
    setState (getState s) u =
      if contentsOf s.cart ≠ contentsOf u.cart then .error .cartridgeHashMismatch
      else if headerIn s.cart ≠ headerIn u.cart then .error .headerMismatch
      else if mapperVersionOf s.cart ≠ mapperVersionOf u.cart then .error .mapperVersionMismatch
      else .ok { s with args := u.args } := by
  unfold setState
  simp only [SavedState.differs_iff, getState_preamble, getState_content, getState_size, preambleOf, ne_eq,
    not_true_eq_false, or_self, if_false]

/-- Saving and loading at once changes nothing (R586). -/
@[simp] theorem setState_getState_self (s : State) : setState (getState s) s = .ok s := by
  simp [setState_getState]

end Sys2Proof.Machine
end

