-- ==== Sys2Proof/Laws/Timing.lean ====
section
/-! SUPPORT. The cost table: what a lookup answers, that any table can be the argument, the range of a cost, and
that no instruction and no step changes the table. -/

namespace Sys2Proof.Machine

/-- A lookup answers the default or a listed value. -/
theorem Cells.read_mem {α : Type} (d : α) (m : List (Nat × α)) (k : Nat) :
    Cells.read d m k = d ∨ (k, Cells.read d m k) ∈ m := by
  induction m with
  | nil => exact .inl rfl
  | cons c m ih =>
    obtain ⟨j, u⟩ := c
    simp only [Cells.read]
    split_ifs with h1 h2
    · exact .inr (by simp [h1])
    · exact .inl rfl
    · exact ih.imp_right (List.mem_cons_of_mem _)

/-- The worst cost of a row of the default table is within the range (R109, R301). -/
theorem defaultRow_cost (op : Byte) :
    2 ≤ (defaultRow op).base ∧
      (defaultRow op).base + (if op.toNat % 32 = 16 then 2 else carryNat (defaultRow op).penalty) ≤ 8 := by
  revert op; decide

/-- So is that of a row of the machine's table, when the table is in range. -/
theorem cycleRow_cost {s : State} (h : s.args.cycleTable.Ok) (op : Byte) :
    2 ≤ (cycleRow s op).base ∧
      (cycleRow s op).base + (if op.toNat % 32 = 16 then 2 else carryNat (cycleRow s op).penalty) ≤ 8 := by
  rcases Cells.read_mem (defaultRow op) s.args.cycleTable op.toNat with e | e
  · rw [cycleRow, e]; exact defaultRow_cost op
  · exact h.cost _ e

/-- The cost of an instruction that is no branch. -/
theorem cyclesOf_range {s : State} (h : s.args.cycleTable.Ok) (op : Byte) (x : Bool) :
    2 ≤ cyclesOf s op x ∧ cyclesOf s op x ≤ 8 := by
  obtain ⟨h1, h2⟩ := cycleRow_cost h op
  have hx : (if x && (cycleRow s op).penalty then 1 else 0) ≤ carryNat (cycleRow s op).penalty := by
    cases x <;> cases (cycleRow s op).penalty <;> decide
  have hc : carryNat (cycleRow s op).penalty ≤ 1 := by cases (cycleRow s op).penalty <;> decide
  unfold cyclesOf CycleRow.cost
  split_ifs at h2 <;> omega

/-- What a branch answers: the table kept and, when it is in range, a cost in range. -/
theorem branch_next {op : Byte} (ho : op.toNat % 32 = 16) (c : Bool) (off : Byte) (s : State) :
    ∃ t, branch op c off s = .next t ∧ t.args = s.args ∧
      (s.args.cycleTable.Ok → 2 ≤ t.cyclesRemaining ∧ t.cyclesRemaining ≤ 8) := by
  have key : s.args.cycleTable.Ok → 2 ≤ (cycleRow s op).base ∧ (cycleRow s op).base + 2 ≤ 8 := fun h => by
    have := cycleRow_cost h op
    rwa [if_pos ho] at this
  unfold branch
  cases c
  · exact ⟨_, rfl, rfl, fun h => ⟨(key h).1, Nat.le_trans (Nat.le_add_right _ 2) (key h).2⟩⟩
  · refine ⟨_, rfl, rfl, fun h => ?_⟩
    have := key h
    dsimp only
    split <;> omega

/-- Building a table from rows lists an opcode exactly when its row is not the default one. -/
theorem read_tableOf (rows : Byte → CycleRow) (l : List Nat) (hl : l.Pairwise (· < ·)) (op : Byte) :
    Cells.read (defaultRow op)
        (l.filterMap fun k =>
          if rows (BitVec.ofNat 8 k) = defaultRow (BitVec.ofNat 8 k) then none
          else some (k, rows (BitVec.ofNat 8 k))) op.toNat =
      if op.toNat ∈ l then rows op else defaultRow op := by
  have hop : (BitVec.ofNat 8 op.toNat : Byte) = op := by simp
  induction l with
  | nil => simp [Cells.read]
  | cons k l ih =>
    have hk := List.pairwise_cons.mp hl
    have ih := ih hk.2
    have tail : op.toNat ≤ k → op.toNat ∉ l := fun h g => absurd (hk.1 _ g) (by omega)
    by_cases e : op.toNat = k
    · subst e
      rw [List.filterMap_cons, hop]
      by_cases g : rows op = defaultRow op
      · simp [g, ih, tail (Nat.le_refl _)]
      · simp [g, Cells.read]
    · rw [List.filterMap_cons]
      by_cases g : rows (BitVec.ofNat 8 k) = defaultRow (BitVec.ofNat 8 k)
      · simp [g, ih, e]
      · simp only [g, if_false, Cells.read, e, ih, List.mem_cons, false_or]
        split_ifs with h1 h2 <;> first | rfl | exact absurd h2 (tail (Nat.le_of_lt h1))

/-- A machine given a table has every row of it (R5, R620). -/
theorem cycleRow_withCycleTable (rows : Byte → CycleRow) (s : State) (op : Byte) :
    cycleRow (s.withCycleTable rows) op = rows op := by
  have h : op.toNat ∈ List.range 256 := List.mem_range.mpr op.isLt
  have := read_tableOf rows (List.range 256) List.pairwise_lt_range op
  rw [if_pos h] at this
  exact this

/-- A table whose rows are in range is in range as the machine's argument. -/
theorem withCycleTable_ok (rows : Byte → CycleRow) (s : State)
    (h : ∀ op, 2 ≤ (rows op).base ∧
      (rows op).base + (if op.toNat % 32 = 16 then 2 else carryNat (rows op).penalty) ≤ 8) :
    (s.withCycleTable rows).args.cycleTable.Ok := by
  have key : ∀ p ∈ cycleTableOf rows, p.1 < 256 ∧ p.2 = rows (BitVec.ofNat 8 p.1) ∧
      rows (BitVec.ofNat 8 p.1) ≠ defaultRow (BitVec.ofNat 8 p.1) := by
    intro p hp
    obtain ⟨k, hk, e⟩ := List.mem_filterMap.mp hp
    dsimp only at e
    split_ifs at e with g
    cases e
    exact ⟨List.mem_range.mp hk, rfl, g⟩
  refine ⟨?_, fun p hp => ?_, fun p hp => ?_⟩
  · show (cycleTableOf rows).Pairwise _
    unfold cycleTableOf
    rw [List.pairwise_filterMap]
    refine List.pairwise_lt_range.imp ?_
    intro a b hab p hp q hq
    dsimp only at hp hq
    split_ifs at hp hq
    cases hp; cases hq
    exact hab
  · obtain ⟨h1, h2, h3⟩ := key p hp
    exact ⟨h1, h2 ▸ h3⟩
  · obtain ⟨h1, h2, h3⟩ := key p hp
    have := h (BitVec.ofNat 8 p.1)
    rw [BitVec.toNat_ofNat, Nat.mod_eq_of_lt h1] at this
    exact h2 ▸ this

/-- The default rows are the empty list. -/
theorem withCycleTable_default (s : State) : (s.withCycleTable defaultRow).args.cycleTable = [] := by
  simp [State.withCycleTable, cycleTableOf]

/-- Reads, writes and the CPU's registers leave the table alone. -/
theorem args_closed : ReadClosed (fun s t => t.args = s.args) where
  trans h g := g.trans h
  regs e := by unfold RegsOnly at e; rw [e]
  read s a := by simp

/-- No step changes the table. -/
theorem step_args {s t : State} (e : step s = .next t) : t.args = s.args := by
  obtain ⟨u, hu, rfl⟩ := args_closed.step (fun s a x => by simp) (fun _ => rfl)
    (fun s => args_closed.dmaStep (fun s a x => by simp) (fun _ _ _ _ => rfl) s) (fun _ => rfl)
    (fun s => args_closed.apuStep (fun _ => rfl) (fun _ _ => rfl) (fun _ => rfl) s) e
  exact hu

end Sys2Proof.Machine
end

