-- ==== Sys2Proof/Tests/Slice0.lean ====
section
/-! SUPPORT. Tests: the 256 decodings spelled out from the opcode map, the check of WellFormed, vectors of
spec/95_test_vectors.md (named in each docstring), and for every statement with hypotheses a witness that
meets them. -/

namespace Sys2Proof.Tests

open Sys2Proof Sys2Proof.Machine

/-! Decoding: the map of R107 with the lengths of R106, bytes written out. -/

/-- Row 0x of the opcode map (R107). -/
theorem test_decode_row0 :
    Encodes [0x00#8] (.brk) ∧
    Encodes [0x01#8, 0x34#8] (.oraIzx 0x34#8) ∧
    Encodes [0x02#8] (.kil02) ∧
    Encodes [0x03#8, 0x34#8] (.sloIzx 0x34#8) ∧
    Encodes [0x04#8, 0x34#8] (.nop04 0x34#8) ∧
    Encodes [0x05#8, 0x34#8] (.oraZp 0x34#8) ∧
    Encodes [0x06#8, 0x34#8] (.aslZp 0x34#8) ∧
    Encodes [0x07#8, 0x34#8] (.sloZp 0x34#8) ∧
    Encodes [0x08#8] (.php) ∧
    Encodes [0x09#8, 0x34#8] (.oraImm 0x34#8) ∧
    Encodes [0x0A#8] (.aslAcc) ∧
    Encodes [0x0B#8, 0x34#8] (.anc0B 0x34#8) ∧
    Encodes [0x0C#8, 0x34#8, 0x12#8] (.nop0C 0x1234#16) ∧
    Encodes [0x0D#8, 0x34#8, 0x12#8] (.oraAbs 0x1234#16) ∧
    Encodes [0x0E#8, 0x34#8, 0x12#8] (.aslAbs 0x1234#16) ∧
    Encodes [0x0F#8, 0x34#8, 0x12#8] (.sloAbs 0x1234#16) := by
  refine ⟨rfl, rfl, rfl, rfl, rfl, rfl, rfl, rfl, rfl, rfl, rfl, rfl, rfl, rfl, rfl, rfl⟩

/-- Row 1x of the opcode map (R107). -/
theorem test_decode_row1 :
    Encodes [0x10#8, 0x34#8] (.bpl 0x34#8) ∧
    Encodes [0x11#8, 0x34#8] (.oraIzy 0x34#8) ∧
    Encodes [0x12#8] (.kil12) ∧
    Encodes [0x13#8, 0x34#8] (.sloIzy 0x34#8) ∧
    Encodes [0x14#8, 0x34#8] (.nop14 0x34#8) ∧
    Encodes [0x15#8, 0x34#8] (.oraZpx 0x34#8) ∧
    Encodes [0x16#8, 0x34#8] (.aslZpx 0x34#8) ∧
    Encodes [0x17#8, 0x34#8] (.sloZpx 0x34#8) ∧
    Encodes [0x18#8] (.clc) ∧
    Encodes [0x19#8, 0x34#8, 0x12#8] (.oraAby 0x1234#16) ∧
    Encodes [0x1A#8] (.nop1A) ∧
    Encodes [0x1B#8, 0x34#8, 0x12#8] (.sloAby 0x1234#16) ∧
    Encodes [0x1C#8, 0x34#8, 0x12#8] (.nop1C 0x1234#16) ∧
    Encodes [0x1D#8, 0x34#8, 0x12#8] (.oraAbx 0x1234#16) ∧
    Encodes [0x1E#8, 0x34#8, 0x12#8] (.aslAbx 0x1234#16) ∧
    Encodes [0x1F#8, 0x34#8, 0x12#8] (.sloAbx 0x1234#16) := by
  refine ⟨rfl, rfl, rfl, rfl, rfl, rfl, rfl, rfl, rfl, rfl, rfl, rfl, rfl, rfl, rfl, rfl⟩

/-- Row 2x of the opcode map (R107). -/
theorem test_decode_row2 :
    Encodes [0x20#8, 0x34#8, 0x12#8] (.jsr 0x1234#16) ∧
    Encodes [0x21#8, 0x34#8] (.andIzx 0x34#8) ∧
    Encodes [0x22#8] (.kil22) ∧
    Encodes [0x23#8, 0x34#8] (.rlaIzx 0x34#8) ∧
    Encodes [0x24#8, 0x34#8] (.bitZp 0x34#8) ∧
    Encodes [0x25#8, 0x34#8] (.andZp 0x34#8) ∧
    Encodes [0x26#8, 0x34#8] (.rolZp 0x34#8) ∧
    Encodes [0x27#8, 0x34#8] (.rlaZp 0x34#8) ∧
    Encodes [0x28#8] (.plp) ∧
    Encodes [0x29#8, 0x34#8] (.andImm 0x34#8) ∧
    Encodes [0x2A#8] (.rolAcc) ∧
    Encodes [0x2B#8, 0x34#8] (.anc2B 0x34#8) ∧
    Encodes [0x2C#8, 0x34#8, 0x12#8] (.bitAbs 0x1234#16) ∧
    Encodes [0x2D#8, 0x34#8, 0x12#8] (.andAbs 0x1234#16) ∧
    Encodes [0x2E#8, 0x34#8, 0x12#8] (.rolAbs 0x1234#16) ∧
    Encodes [0x2F#8, 0x34#8, 0x12#8] (.rlaAbs 0x1234#16) := by
  refine ⟨rfl, rfl, rfl, rfl, rfl, rfl, rfl, rfl, rfl, rfl, rfl, rfl, rfl, rfl, rfl, rfl⟩

/-- Row 3x of the opcode map (R107). -/
theorem test_decode_row3 :
    Encodes [0x30#8, 0x34#8] (.bmi 0x34#8) ∧
    Encodes [0x31#8, 0x34#8] (.andIzy 0x34#8) ∧
    Encodes [0x32#8] (.kil32) ∧
    Encodes [0x33#8, 0x34#8] (.rlaIzy 0x34#8) ∧
    Encodes [0x34#8, 0x34#8] (.nop34 0x34#8) ∧
    Encodes [0x35#8, 0x34#8] (.andZpx 0x34#8) ∧
    Encodes [0x36#8, 0x34#8] (.rolZpx 0x34#8) ∧
    Encodes [0x37#8, 0x34#8] (.rlaZpx 0x34#8) ∧
    Encodes [0x38#8] (.sec) ∧
    Encodes [0x39#8, 0x34#8, 0x12#8] (.andAby 0x1234#16) ∧
    Encodes [0x3A#8] (.nop3A) ∧
    Encodes [0x3B#8, 0x34#8, 0x12#8] (.rlaAby 0x1234#16) ∧
    Encodes [0x3C#8, 0x34#8, 0x12#8] (.nop3C 0x1234#16) ∧
    Encodes [0x3D#8, 0x34#8, 0x12#8] (.andAbx 0x1234#16) ∧
    Encodes [0x3E#8, 0x34#8, 0x12#8] (.rolAbx 0x1234#16) ∧
    Encodes [0x3F#8, 0x34#8, 0x12#8] (.rlaAbx 0x1234#16) := by
  refine ⟨rfl, rfl, rfl, rfl, rfl, rfl, rfl, rfl, rfl, rfl, rfl, rfl, rfl, rfl, rfl, rfl⟩

/-- Row 4x of the opcode map (R107). -/
theorem test_decode_row4 :
    Encodes [0x40#8] (.rti) ∧
    Encodes [0x41#8, 0x34#8] (.eorIzx 0x34#8) ∧
    Encodes [0x42#8] (.kil42) ∧
    Encodes [0x43#8, 0x34#8] (.sreIzx 0x34#8) ∧
    Encodes [0x44#8, 0x34#8] (.nop44 0x34#8) ∧
    Encodes [0x45#8, 0x34#8] (.eorZp 0x34#8) ∧
    Encodes [0x46#8, 0x34#8] (.lsrZp 0x34#8) ∧
    Encodes [0x47#8, 0x34#8] (.sreZp 0x34#8) ∧
    Encodes [0x48#8] (.pha) ∧
    Encodes [0x49#8, 0x34#8] (.eorImm 0x34#8) ∧
    Encodes [0x4A#8] (.lsrAcc) ∧
    Encodes [0x4B#8, 0x34#8] (.alr 0x34#8) ∧
    Encodes [0x4C#8, 0x34#8, 0x12#8] (.jmpAbs 0x1234#16) ∧
    Encodes [0x4D#8, 0x34#8, 0x12#8] (.eorAbs 0x1234#16) ∧
    Encodes [0x4E#8, 0x34#8, 0x12#8] (.lsrAbs 0x1234#16) ∧
    Encodes [0x4F#8, 0x34#8, 0x12#8] (.sreAbs 0x1234#16) := by
  refine ⟨rfl, rfl, rfl, rfl, rfl, rfl, rfl, rfl, rfl, rfl, rfl, rfl, rfl, rfl, rfl, rfl⟩

/-- Row 5x of the opcode map (R107). -/
theorem test_decode_row5 :
    Encodes [0x50#8, 0x34#8] (.bvc 0x34#8) ∧
    Encodes [0x51#8, 0x34#8] (.eorIzy 0x34#8) ∧
    Encodes [0x52#8] (.kil52) ∧
    Encodes [0x53#8, 0x34#8] (.sreIzy 0x34#8) ∧
    Encodes [0x54#8, 0x34#8] (.nop54 0x34#8) ∧
    Encodes [0x55#8, 0x34#8] (.eorZpx 0x34#8) ∧
    Encodes [0x56#8, 0x34#8] (.lsrZpx 0x34#8) ∧
    Encodes [0x57#8, 0x34#8] (.sreZpx 0x34#8) ∧
    Encodes [0x58#8] (.cli) ∧
    Encodes [0x59#8, 0x34#8, 0x12#8] (.eorAby 0x1234#16) ∧
    Encodes [0x5A#8] (.nop5A) ∧
    Encodes [0x5B#8, 0x34#8, 0x12#8] (.sreAby 0x1234#16) ∧
    Encodes [0x5C#8, 0x34#8, 0x12#8] (.nop5C 0x1234#16) ∧
    Encodes [0x5D#8, 0x34#8, 0x12#8] (.eorAbx 0x1234#16) ∧
    Encodes [0x5E#8, 0x34#8, 0x12#8] (.lsrAbx 0x1234#16) ∧
    Encodes [0x5F#8, 0x34#8, 0x12#8] (.sreAbx 0x1234#16) := by
  refine ⟨rfl, rfl, rfl, rfl, rfl, rfl, rfl, rfl, rfl, rfl, rfl, rfl, rfl, rfl, rfl, rfl⟩

/-- Row 6x of the opcode map (R107). -/
theorem test_decode_row6 :
    Encodes [0x60#8] (.rts) ∧
    Encodes [0x61#8, 0x34#8] (.adcIzx 0x34#8) ∧
    Encodes [0x62#8] (.kil62) ∧
    Encodes [0x63#8, 0x34#8] (.rraIzx 0x34#8) ∧
    Encodes [0x64#8, 0x34#8] (.nop64 0x34#8) ∧
    Encodes [0x65#8, 0x34#8] (.adcZp 0x34#8) ∧
    Encodes [0x66#8, 0x34#8] (.rorZp 0x34#8) ∧
    Encodes [0x67#8, 0x34#8] (.rraZp 0x34#8) ∧
    Encodes [0x68#8] (.pla) ∧
    Encodes [0x69#8, 0x34#8] (.adcImm 0x34#8) ∧
    Encodes [0x6A#8] (.rorAcc) ∧
    Encodes [0x6B#8, 0x34#8] (.arr 0x34#8) ∧
    Encodes [0x6C#8, 0x34#8, 0x12#8] (.jmpInd 0x1234#16) ∧
    Encodes [0x6D#8, 0x34#8, 0x12#8] (.adcAbs 0x1234#16) ∧
    Encodes [0x6E#8, 0x34#8, 0x12#8] (.rorAbs 0x1234#16) ∧
    Encodes [0x6F#8, 0x34#8, 0x12#8] (.rraAbs 0x1234#16) := by
  refine ⟨rfl, rfl, rfl, rfl, rfl, rfl, rfl, rfl, rfl, rfl, rfl, rfl, rfl, rfl, rfl, rfl⟩

/-- Row 7x of the opcode map (R107). -/
theorem test_decode_row7 :
    Encodes [0x70#8, 0x34#8] (.bvs 0x34#8) ∧
    Encodes [0x71#8, 0x34#8] (.adcIzy 0x34#8) ∧
    Encodes [0x72#8] (.kil72) ∧
    Encodes [0x73#8, 0x34#8] (.rraIzy 0x34#8) ∧
    Encodes [0x74#8, 0x34#8] (.nop74 0x34#8) ∧
    Encodes [0x75#8, 0x34#8] (.adcZpx 0x34#8) ∧
    Encodes [0x76#8, 0x34#8] (.rorZpx 0x34#8) ∧
    Encodes [0x77#8, 0x34#8] (.rraZpx 0x34#8) ∧
    Encodes [0x78#8] (.sei) ∧
    Encodes [0x79#8, 0x34#8, 0x12#8] (.adcAby 0x1234#16) ∧
    Encodes [0x7A#8] (.nop7A) ∧
    Encodes [0x7B#8, 0x34#8, 0x12#8] (.rraAby 0x1234#16) ∧
    Encodes [0x7C#8, 0x34#8, 0x12#8] (.nop7C 0x1234#16) ∧
    Encodes [0x7D#8, 0x34#8, 0x12#8] (.adcAbx 0x1234#16) ∧
    Encodes [0x7E#8, 0x34#8, 0x12#8] (.rorAbx 0x1234#16) ∧
    Encodes [0x7F#8, 0x34#8, 0x12#8] (.rraAbx 0x1234#16) := by
  refine ⟨rfl, rfl, rfl, rfl, rfl, rfl, rfl, rfl, rfl, rfl, rfl, rfl, rfl, rfl, rfl, rfl⟩

/-- Row 8x of the opcode map (R107). -/
theorem test_decode_row8 :
    Encodes [0x80#8, 0x34#8] (.nop80 0x34#8) ∧
    Encodes [0x81#8, 0x34#8] (.staIzx 0x34#8) ∧
    Encodes [0x82#8, 0x34#8] (.nop82 0x34#8) ∧
    Encodes [0x83#8, 0x34#8] (.saxIzx 0x34#8) ∧
    Encodes [0x84#8, 0x34#8] (.styZp 0x34#8) ∧
    Encodes [0x85#8, 0x34#8] (.staZp 0x34#8) ∧
    Encodes [0x86#8, 0x34#8] (.stxZp 0x34#8) ∧
    Encodes [0x87#8, 0x34#8] (.saxZp 0x34#8) ∧
    Encodes [0x88#8] (.dey) ∧
    Encodes [0x89#8, 0x34#8] (.nop89 0x34#8) ∧
    Encodes [0x8A#8] (.txa) ∧
    Encodes [0x8B#8, 0x34#8] (.xaa 0x34#8) ∧
    Encodes [0x8C#8, 0x34#8, 0x12#8] (.styAbs 0x1234#16) ∧
    Encodes [0x8D#8, 0x34#8, 0x12#8] (.staAbs 0x1234#16) ∧
    Encodes [0x8E#8, 0x34#8, 0x12#8] (.stxAbs 0x1234#16) ∧
    Encodes [0x8F#8, 0x34#8, 0x12#8] (.saxAbs 0x1234#16) := by
  refine ⟨rfl, rfl, rfl, rfl, rfl, rfl, rfl, rfl, rfl, rfl, rfl, rfl, rfl, rfl, rfl, rfl⟩

/-- Row 9x of the opcode map (R107). -/
theorem test_decode_row9 :
    Encodes [0x90#8, 0x34#8] (.bcc 0x34#8) ∧
    Encodes [0x91#8, 0x34#8] (.staIzy 0x34#8) ∧
    Encodes [0x92#8] (.kil92) ∧
    Encodes [0x93#8, 0x34#8] (.ahxIzy 0x34#8) ∧
    Encodes [0x94#8, 0x34#8] (.styZpx 0x34#8) ∧
    Encodes [0x95#8, 0x34#8] (.staZpx 0x34#8) ∧
    Encodes [0x96#8, 0x34#8] (.stxZpy 0x34#8) ∧
    Encodes [0x97#8, 0x34#8] (.saxZpy 0x34#8) ∧
    Encodes [0x98#8] (.tya) ∧
    Encodes [0x99#8, 0x34#8, 0x12#8] (.staAby 0x1234#16) ∧
    Encodes [0x9A#8] (.txs) ∧
    Encodes [0x9B#8, 0x34#8, 0x12#8] (.tas 0x1234#16) ∧
    Encodes [0x9C#8, 0x34#8, 0x12#8] (.shy 0x1234#16) ∧
    Encodes [0x9D#8, 0x34#8, 0x12#8] (.staAbx 0x1234#16) ∧
    Encodes [0x9E#8, 0x34#8, 0x12#8] (.shx 0x1234#16) ∧
    Encodes [0x9F#8, 0x34#8, 0x12#8] (.ahxAby 0x1234#16) := by
  refine ⟨rfl, rfl, rfl, rfl, rfl, rfl, rfl, rfl, rfl, rfl, rfl, rfl, rfl, rfl, rfl, rfl⟩

/-- Row Ax of the opcode map (R107). -/
theorem test_decode_rowA :
    Encodes [0xA0#8, 0x34#8] (.ldyImm 0x34#8) ∧
    Encodes [0xA1#8, 0x34#8] (.ldaIzx 0x34#8) ∧
    Encodes [0xA2#8, 0x34#8] (.ldxImm 0x34#8) ∧
    Encodes [0xA3#8, 0x34#8] (.laxIzx 0x34#8) ∧
    Encodes [0xA4#8, 0x34#8] (.ldyZp 0x34#8) ∧
    Encodes [0xA5#8, 0x34#8] (.ldaZp 0x34#8) ∧
    Encodes [0xA6#8, 0x34#8] (.ldxZp 0x34#8) ∧
    Encodes [0xA7#8, 0x34#8] (.laxZp 0x34#8) ∧
    Encodes [0xA8#8] (.tay) ∧
    Encodes [0xA9#8, 0x34#8] (.ldaImm 0x34#8) ∧
    Encodes [0xAA#8] (.tax) ∧
    Encodes [0xAB#8, 0x34#8] (.lxa 0x34#8) ∧
    Encodes [0xAC#8, 0x34#8, 0x12#8] (.ldyAbs 0x1234#16) ∧
    Encodes [0xAD#8, 0x34#8, 0x12#8] (.ldaAbs 0x1234#16) ∧
    Encodes [0xAE#8, 0x34#8, 0x12#8] (.ldxAbs 0x1234#16) ∧
    Encodes [0xAF#8, 0x34#8, 0x12#8] (.laxAbs 0x1234#16) := by
  refine ⟨rfl, rfl, rfl, rfl, rfl, rfl, rfl, rfl, rfl, rfl, rfl, rfl, rfl, rfl, rfl, rfl⟩

/-- Row Bx of the opcode map (R107). -/
theorem test_decode_rowB :
    Encodes [0xB0#8, 0x34#8] (.bcs 0x34#8) ∧
    Encodes [0xB1#8, 0x34#8] (.ldaIzy 0x34#8) ∧
    Encodes [0xB2#8] (.kilB2) ∧
    Encodes [0xB3#8, 0x34#8] (.laxIzy 0x34#8) ∧
    Encodes [0xB4#8, 0x34#8] (.ldyZpx 0x34#8) ∧
    Encodes [0xB5#8, 0x34#8] (.ldaZpx 0x34#8) ∧
    Encodes [0xB6#8, 0x34#8] (.ldxZpy 0x34#8) ∧
    Encodes [0xB7#8, 0x34#8] (.laxZpy 0x34#8) ∧
    Encodes [0xB8#8] (.clv) ∧
    Encodes [0xB9#8, 0x34#8, 0x12#8] (.ldaAby 0x1234#16) ∧
    Encodes [0xBA#8] (.tsx) ∧
    Encodes [0xBB#8, 0x34#8, 0x12#8] (.las 0x1234#16) ∧
    Encodes [0xBC#8, 0x34#8, 0x12#8] (.ldyAbx 0x1234#16) ∧
    Encodes [0xBD#8, 0x34#8, 0x12#8] (.ldaAbx 0x1234#16) ∧
    Encodes [0xBE#8, 0x34#8, 0x12#8] (.ldxAby 0x1234#16) ∧
    Encodes [0xBF#8, 0x34#8, 0x12#8] (.laxAby 0x1234#16) := by
  refine ⟨rfl, rfl, rfl, rfl, rfl, rfl, rfl, rfl, rfl, rfl, rfl, rfl, rfl, rfl, rfl, rfl⟩

/-- Row Cx of the opcode map (R107). -/
theorem test_decode_rowC :
    Encodes [0xC0#8, 0x34#8] (.cpyImm 0x34#8) ∧
    Encodes [0xC1#8, 0x34#8] (.cmpIzx 0x34#8) ∧
    Encodes [0xC2#8, 0x34#8] (.nopC2 0x34#8) ∧
    Encodes [0xC3#8, 0x34#8] (.dcpIzx 0x34#8) ∧
    Encodes [0xC4#8, 0x34#8] (.cpyZp 0x34#8) ∧
    Encodes [0xC5#8, 0x34#8] (.cmpZp 0x34#8) ∧
    Encodes [0xC6#8, 0x34#8] (.decZp 0x34#8) ∧
    Encodes [0xC7#8, 0x34#8] (.dcpZp 0x34#8) ∧
    Encodes [0xC8#8] (.iny) ∧
    Encodes [0xC9#8, 0x34#8] (.cmpImm 0x34#8) ∧
    Encodes [0xCA#8] (.dex) ∧
    Encodes [0xCB#8, 0x34#8] (.axs 0x34#8) ∧
    Encodes [0xCC#8, 0x34#8, 0x12#8] (.cpyAbs 0x1234#16) ∧
    Encodes [0xCD#8, 0x34#8, 0x12#8] (.cmpAbs 0x1234#16) ∧
    Encodes [0xCE#8, 0x34#8, 0x12#8] (.decAbs 0x1234#16) ∧
    Encodes [0xCF#8, 0x34#8, 0x12#8] (.dcpAbs 0x1234#16) := by
  refine ⟨rfl, rfl, rfl, rfl, rfl, rfl, rfl, rfl, rfl, rfl, rfl, rfl, rfl, rfl, rfl, rfl⟩

/-- Row Dx of the opcode map (R107). -/
theorem test_decode_rowD :
    Encodes [0xD0#8, 0x34#8] (.bne 0x34#8) ∧
    Encodes [0xD1#8, 0x34#8] (.cmpIzy 0x34#8) ∧
    Encodes [0xD2#8] (.kilD2) ∧
    Encodes [0xD3#8, 0x34#8] (.dcpIzy 0x34#8) ∧
    Encodes [0xD4#8, 0x34#8] (.nopD4 0x34#8) ∧
    Encodes [0xD5#8, 0x34#8] (.cmpZpx 0x34#8) ∧
    Encodes [0xD6#8, 0x34#8] (.decZpx 0x34#8) ∧
    Encodes [0xD7#8, 0x34#8] (.dcpZpx 0x34#8) ∧
    Encodes [0xD8#8] (.cld) ∧
    Encodes [0xD9#8, 0x34#8, 0x12#8] (.cmpAby 0x1234#16) ∧
    Encodes [0xDA#8] (.nopDA) ∧
    Encodes [0xDB#8, 0x34#8, 0x12#8] (.dcpAby 0x1234#16) ∧
    Encodes [0xDC#8, 0x34#8, 0x12#8] (.nopDC 0x1234#16) ∧
    Encodes [0xDD#8, 0x34#8, 0x12#8] (.cmpAbx 0x1234#16) ∧
    Encodes [0xDE#8, 0x34#8, 0x12#8] (.decAbx 0x1234#16) ∧
    Encodes [0xDF#8, 0x34#8, 0x12#8] (.dcpAbx 0x1234#16) := by
  refine ⟨rfl, rfl, rfl, rfl, rfl, rfl, rfl, rfl, rfl, rfl, rfl, rfl, rfl, rfl, rfl, rfl⟩

/-- Row Ex of the opcode map (R107). -/
theorem test_decode_rowE :
    Encodes [0xE0#8, 0x34#8] (.cpxImm 0x34#8) ∧
    Encodes [0xE1#8, 0x34#8] (.sbcIzx 0x34#8) ∧
    Encodes [0xE2#8, 0x34#8] (.nopE2 0x34#8) ∧
    Encodes [0xE3#8, 0x34#8] (.iscIzx 0x34#8) ∧
    Encodes [0xE4#8, 0x34#8] (.cpxZp 0x34#8) ∧
    Encodes [0xE5#8, 0x34#8] (.sbcZp 0x34#8) ∧
    Encodes [0xE6#8, 0x34#8] (.incZp 0x34#8) ∧
    Encodes [0xE7#8, 0x34#8] (.iscZp 0x34#8) ∧
    Encodes [0xE8#8] (.inx) ∧
    Encodes [0xE9#8, 0x34#8] (.sbcImm 0x34#8) ∧
    Encodes [0xEA#8] (.nop) ∧
    Encodes [0xEB#8, 0x34#8] (.sbcEB 0x34#8) ∧
    Encodes [0xEC#8, 0x34#8, 0x12#8] (.cpxAbs 0x1234#16) ∧
    Encodes [0xED#8, 0x34#8, 0x12#8] (.sbcAbs 0x1234#16) ∧
    Encodes [0xEE#8, 0x34#8, 0x12#8] (.incAbs 0x1234#16) ∧
    Encodes [0xEF#8, 0x34#8, 0x12#8] (.iscAbs 0x1234#16) := by
  refine ⟨rfl, rfl, rfl, rfl, rfl, rfl, rfl, rfl, rfl, rfl, rfl, rfl, rfl, rfl, rfl, rfl⟩

/-- Row Fx of the opcode map (R107). -/
theorem test_decode_rowF :
    Encodes [0xF0#8, 0x34#8] (.beq 0x34#8) ∧
    Encodes [0xF1#8, 0x34#8] (.sbcIzy 0x34#8) ∧
    Encodes [0xF2#8] (.kilF2) ∧
    Encodes [0xF3#8, 0x34#8] (.iscIzy 0x34#8) ∧
    Encodes [0xF4#8, 0x34#8] (.nopF4 0x34#8) ∧
    Encodes [0xF5#8, 0x34#8] (.sbcZpx 0x34#8) ∧
    Encodes [0xF6#8, 0x34#8] (.incZpx 0x34#8) ∧
    Encodes [0xF7#8, 0x34#8] (.iscZpx 0x34#8) ∧
    Encodes [0xF8#8] (.sed) ∧
    Encodes [0xF9#8, 0x34#8, 0x12#8] (.sbcAby 0x1234#16) ∧
    Encodes [0xFA#8] (.nopFA) ∧
    Encodes [0xFB#8, 0x34#8, 0x12#8] (.iscAby 0x1234#16) ∧
    Encodes [0xFC#8, 0x34#8, 0x12#8] (.nopFC 0x1234#16) ∧
    Encodes [0xFD#8, 0x34#8, 0x12#8] (.sbcAbx 0x1234#16) ∧
    Encodes [0xFE#8, 0x34#8, 0x12#8] (.incAbx 0x1234#16) ∧
    Encodes [0xFF#8, 0x34#8, 0x12#8] (.iscAbx 0x1234#16) := by
  refine ⟨rfl, rfl, rfl, rfl, rfl, rfl, rfl, rfl, rfl, rfl, rfl, rfl, rfl, rfl, rfl, rfl⟩

/-! WellFormed refuses an instruction of each of the eight unstable opcodes (R262). -/

theorem test_wf_refuses_xaa : (Instr.xaa 0x01#8).wf = false := by decide

theorem test_wf_refuses_ahxIzy : (Instr.ahxIzy 0x01#8).wf = false := by decide

theorem test_wf_refuses_tas : (Instr.tas 0x0200#16).wf = false := by decide

theorem test_wf_refuses_shy : (Instr.shy 0x0200#16).wf = false := by decide

theorem test_wf_refuses_shx : (Instr.shx 0x0200#16).wf = false := by decide

theorem test_wf_refuses_ahxAby : (Instr.ahxAby 0x0200#16).wf = false := by decide

theorem test_wf_refuses_lxa : (Instr.lxa 0x01#8).wf = false := by decide

theorem test_wf_refuses_las : (Instr.las 0x0200#16).wf = false := by decide

/-- And admits one of each other class: official, unofficial, kill. -/
theorem test_wf_admits :
    ((Instr.ldaImm 0x01#8).wf && (Instr.sloZp 0x01#8).wf && Instr.kil02.wf) = true := by decide

/-! Instructions: one `exec` each, expected values from spec/95_test_vectors.md. -/

/-- The start state of the vectors: A, X, Y and the flags 0, S 0xFD, memory 0; PC after an instruction of
`n` bytes at 0x8000. -/
def start (n : Nat) : State :=
  { State.reset with flagI := false, cyclesRemaining := 0, pc := 0x8000#16 + BitVec.ofNat 16 n }

/-- The instruction completes and the next state passes the test. -/
def runs (i : Instr) (s : State) (p : State → Bool) : Bool :=
  match exec i s with
  | .next t => p t
  | .fault _ => false
  | .refused _ => false

/-- The byte at an address of work RAM. -/
def at' (t : State) (k : Nat) : Byte := Memory.read t.ram k

/-- The cost table is an argument (R104, R109, R620): NOP, LDA abs,X across a page and a branch to another page,
by rows that are not the default ones. -/
theorem test_cycle_table :
    (let s := ({ start 3 with x := 0x01#8 }).withCycleTable fun op =>
       if op = 0xEA#8 then ⟨5, false⟩ else if op = 0xBD#8 then ⟨6, true⟩
       else if op = 0xF0#8 then ⟨3, false⟩ else defaultRow op
     runs .nop s (fun t => t.cyclesRemaining == 5) && runs (.ldaAbx 0x02FF#16) s (fun t => t.cyclesRemaining == 7) &&
       runs (.beq 0x80#8) { s with flagZ := true } (fun t => t.cyclesRemaining == 5) &&
       runs .brk s (fun t => t.cyclesRemaining == 7)) = true := by decide

/-- T-A1. -/
theorem test_ldaZpx_wraps : runs (.ldaZpx 0xF0#8) { start 2 with x := 0x20#8, ram := [(0x10, 0x77#8), (0x110, 0x99#8)] } (fun t =>
      t.a == 0x77#8 && t.cyclesRemaining == 4) = true := by decide

/-- T-A2. -/
theorem test_ldxZpy_wraps : runs (.ldxZpy 0xFF#8) { start 2 with y := 0x02#8, ram := [(0x1, 0x55#8), (0x101, 0x66#8)] } (fun t =>
      t.x == 0x55#8 && t.cyclesRemaining == 4) = true := by decide

/-- T-A3. -/
theorem test_ldaIzx_pointer_wraps : runs (.ldaIzx 0xFE#8) { start 2 with x := 0x01#8, ram := [(0x0, 0x12#8), (0xff, 0x34#8), (0x100, 0x99#8), (0x234, 0xAB#8)] } (fun t =>
      t.a == 0xAB#8 && t.flagN && t.cyclesRemaining == 6) = true := by decide

/-- T-A4. -/
theorem test_ldaIzy_pointer_wraps : runs (.ldaIzy 0xFF#8) { start 2 with y := 0x10#8, ram := [(0x0, 0x02#8), (0xff, 0xF8#8), (0x100, 0x99#8), (0x308, 0xCD#8)] } (fun t =>
      t.a == 0xCD#8 && t.flagN && t.cyclesRemaining == 6) = true := by decide

/-- T-A5. -/
theorem test_ldaIzy_no_cross : runs (.ldaIzy 0x40#8) { start 2 with y := 0x10#8, ram := [(0x41, 0x03#8), (0x310, 0xEE#8)] } (fun t =>
      t.a == 0xEE#8 && t.flagN && t.cyclesRemaining == 5) = true := by decide

/-- T-A6. -/
theorem test_ldaAbx_cross : runs (.ldaAbx 0x02F0#16) { start 3 with x := 0x10#8, ram := [(0x300, 0x5A#8)] } (fun t =>
      t.a == 0x5A#8 && t.cyclesRemaining == 5) = true := by decide

/-- T-A7. -/
theorem test_ldaAbx_no_cross : runs (.ldaAbx 0x02F0#16) { start 3 with x := 0x0F#8, ram := [(0x2ff, 0x5B#8)] } (fun t =>
      t.a == 0x5B#8 && t.cyclesRemaining == 4) = true := by decide

/-- T-A8. -/
theorem test_ldaAby_wraps_top : runs (.ldaAby 0xFFFF#16) { start 3 with y := 0x02#8, ram := [(0x1, 0x5C#8)] } (fun t =>
      t.a == 0x5C#8 && t.cyclesRemaining == 5) = true := by decide

/-- T-A9. -/
theorem test_staAbx_fixed : runs (.staAbx 0x02F0#16) { start 3 with a := 0x11#8, x := 0x10#8 } (fun t =>
      at' t 0x300 == 0x11#8 && t.cyclesRemaining == 5) = true := by decide

/-- T-A10. -/
theorem test_staIzy : runs (.staIzy 0x40#8) { start 2 with a := 0x22#8, y := 0xFF#8, ram := [(0x40, 0x01#8), (0x41, 0x03#8)] } (fun t =>
      at' t 0x400 == 0x22#8 && t.cyclesRemaining == 6) = true := by decide

/-- T-A11. -/
theorem test_staAby : runs (.staAby 0x0200#16) { start 3 with a := 0x33#8, y := 0xFF#8 } (fun t =>
      at' t 0x2ff == 0x33#8 && t.cyclesRemaining == 5) = true := by decide

/-- T-A12. -/
theorem test_jmpInd_page_wrap : runs (.jmpInd 0x02FF#16) { start 3 with ram := [(0x200, 0x12#8), (0x2ff, 0x34#8), (0x300, 0x56#8)] } (fun t =>
      t.pc == 0x1234#16 && t.cyclesRemaining == 5) = true := by decide

/-- T-A13. -/
theorem test_jmpInd : runs (.jmpInd 0x0300#16) { start 3 with ram := [(0x300, 0x78#8), (0x301, 0x56#8)] } (fun t =>
      t.pc == 0x5678#16 && t.cyclesRemaining == 5) = true := by decide

/-- T-L1. -/
theorem test_ldaImm : runs (.ldaImm 0x80#8) (start 2) (fun t =>
      t.a == 0x80#8 && !t.flagZ && t.flagN && t.cyclesRemaining == 2) = true := by decide

/-- T-L2. -/
theorem test_ldxImm : runs (.ldxImm 0x00#8) { start 2 with x := 0x07#8 } (fun t =>
      t.x == 0x00#8 && t.flagZ && !t.flagN && t.cyclesRemaining == 2) = true := by decide

/-- T-L3. -/
theorem test_ldyImm : runs (.ldyImm 0x7F#8) (start 2) (fun t =>
      t.y == 0x7F#8 && !t.flagZ && !t.flagN && t.cyclesRemaining == 2) = true := by decide

/-- T-L4. -/
theorem test_staAbx_no_flags : runs (.staAbx 0x02FF#16) { start 3 with a := 0x42#8, x := 0x01#8 } (fun t =>
      !t.flagZ && !t.flagN && at' t 0x300 == 0x42#8 && t.cyclesRemaining == 5) = true := by decide

/-- T-L5. -/
theorem test_stxZpy : runs (.stxZpy 0x02#8) { start 2 with x := 0x10#8, y := 0xFF#8 } (fun t =>
      at' t 0x1 == 0x10#8 && t.cyclesRemaining == 4) = true := by decide

/-- T-L6. -/
theorem test_styAbs : runs (.styAbs 0x0200#16) { start 3 with y := 0x33#8 } (fun t =>
      at' t 0x200 == 0x33#8 && t.cyclesRemaining == 4) = true := by decide

/-- T-L7. -/
theorem test_tax : runs .tax { start 1 with a := 0x00#8, x := 0x05#8 } (fun t =>
      t.x == 0x00#8 && t.flagZ && !t.flagN && t.cyclesRemaining == 2) = true := by decide

/-- T-L8. -/
theorem test_tay : runs .tay { start 1 with a := 0xF0#8 } (fun t =>
      t.y == 0xF0#8 && !t.flagZ && t.flagN && t.cyclesRemaining == 2) = true := by decide

/-- T-L9. -/
theorem test_txa : runs .txa { start 1 with x := 0x01#8 } (fun t =>
      t.a == 0x01#8 && !t.flagZ && !t.flagN && t.cyclesRemaining == 2) = true := by decide

/-- T-L10. -/
theorem test_tya : runs .tya { start 1 with y := 0x80#8 } (fun t =>
      t.a == 0x80#8 && !t.flagZ && t.flagN && t.cyclesRemaining == 2) = true := by decide

/-- T-L11. -/
theorem test_tsx : runs .tsx (start 1) (fun t =>
      t.x == 0xFD#8 && !t.flagZ && t.flagN && t.cyclesRemaining == 2) = true := by decide

/-- T-L12. -/
theorem test_txs_no_flags : runs .txs { start 1 with x := 0xFF#8, flagZ := true } (fun t =>
      t.sp == 0xFF#8 && t.flagZ && !t.flagN && t.cyclesRemaining == 2) = true := by decide

/-- T-K1. -/
theorem test_pha : runs .pha { start 1 with a := 0x5A#8 } (fun t =>
      t.sp == 0xFC#8 && at' t 0x1fd == 0x5A#8 && t.cyclesRemaining == 3) = true := by decide

/-- T-K2. -/
theorem test_php : runs .php { start 1 with flagN := true, flagI := true, flagC := true } (fun t =>
      t.sp == 0xFC#8 && t.flagN && t.flagI && t.flagC && at' t 0x1fd == 0xB5#8 && t.cyclesRemaining == 3) = true := by decide

/-- T-K3. -/
theorem test_pla : runs .pla { start 1 with sp := 0xFC#8, a := 0x09#8, ram := [] } (fun t =>
      t.a == 0x00#8 && t.sp == 0xFD#8 && t.flagZ && !t.flagN && t.cyclesRemaining == 4) = true := by decide

/-- T-K4. -/
theorem test_plp : runs .plp { start 1 with sp := 0xFC#8, ram := [(0x1fd, 0xFF#8)] } (fun t =>
      t.flagN && t.flagV && t.flagD && t.flagI && t.flagZ && t.flagC && t.sp == 0xFD#8 &&
      t.cyclesRemaining == 4) = true := by decide

/-- T-K6. -/
theorem test_pha_wraps : runs .pha { start 1 with a := 0xAA#8, sp := 0x00#8 } (fun t =>
      t.sp == 0xFF#8 && at' t 0x100 == 0xAA#8) = true := by decide

/-- T-K7. -/
theorem test_pla_wraps : runs .pla { start 1 with sp := 0xFF#8, ram := [(0x100, 0x80#8)] } (fun t =>
      t.a == 0x80#8 && t.sp == 0x00#8 && t.flagN) = true := by decide

/-- T-G1. -/
theorem test_oraImm : runs (.oraImm 0xF0#8) { start 2 with a := 0x0F#8 } (fun t =>
      t.a == 0xFF#8 && t.flagN && !t.flagZ) = true := by decide

/-- T-G2. -/
theorem test_andImm : runs (.andImm 0x0F#8) { start 2 with a := 0xF0#8 } (fun t =>
      t.a == 0x00#8 && t.flagZ && !t.flagN) = true := by decide

/-- T-G3. -/
theorem test_eorImm : runs (.eorImm 0xFF#8) { start 2 with a := 0xAA#8 } (fun t =>
      t.a == 0x55#8 && !t.flagZ && !t.flagN) = true := by decide

/-- T-G4. -/
theorem test_bitZp : runs (.bitZp 0x10#8) { start 2 with a := 0x01#8, ram := [(0x10, 0xC0#8)] } (fun t =>
      t.flagZ && t.flagN && t.flagV && t.a == 0x01#8 && t.cyclesRemaining == 3) = true := by decide

/-- T-G6. -/
theorem test_bitAbs : runs (.bitAbs 0x0200#16) { start 3 with a := 0x00#8, ram := [(0x200, 0x40#8)] } (fun t =>
      t.flagZ && !t.flagN && t.flagV && t.cyclesRemaining == 4) = true := by decide

/-- A row of the ADC and SBC tables: A, operand, carry in, A out, N, V, Z, carry out. -/
abbrev ArithCase := Byte × Byte × Bool × Byte × Bool × Bool × Bool × Bool

/-- The instruction gives the row's result and flags. -/
def arith (i : Byte → Instr) (c : ArithCase) : Bool :=
  let (a, m, cin, r, n, v, z, cout) := c
  runs (i m) { start 2 with a := a, flagC := cin } fun t =>
    t.a == r && t.flagN == n && t.flagV == v && t.flagZ == z && t.flagC == cout

/-- T-G10 to T-G17. -/
theorem test_adcImm : (
    arith .adcImm (0x50#8, 0x50#8, false, 0xA0#8, true, true, false, false) &&
    arith .adcImm (0x50#8, 0x10#8, false, 0x60#8, false, false, false, false) &&
    arith .adcImm (0xD0#8, 0x90#8, false, 0x60#8, false, true, false, true) &&
    arith .adcImm (0xFF#8, 0x01#8, false, 0x00#8, false, false, true, true) &&
    arith .adcImm (0x7F#8, 0x00#8, true, 0x80#8, true, true, false, false) &&
    arith .adcImm (0xFF#8, 0xFF#8, true, 0xFF#8, true, false, false, true) &&
    arith .adcImm (0x00#8, 0x00#8, false, 0x00#8, false, false, true, false) &&
    arith .adcImm (0x80#8, 0xFF#8, false, 0x7F#8, false, true, false, true)) = true := by decide

/-- T-G18. -/
theorem test_adcImm_ignores_decimal : runs (.adcImm 0x01#8) { start 2 with a := 0x09#8, flagD := true } (fun t =>
      t.a == 0x0A#8 && !t.flagC) = true := by decide

/-- T-G20 to T-G27. -/
theorem test_sbcImm : (
    arith .sbcImm (0x10#8, 0x01#8, true, 0x0F#8, false, false, false, true) &&
    arith .sbcImm (0x50#8, 0xF0#8, true, 0x60#8, false, false, false, false) &&
    arith .sbcImm (0x50#8, 0xB0#8, true, 0xA0#8, true, true, false, false) &&
    arith .sbcImm (0x00#8, 0x01#8, true, 0xFF#8, true, false, false, false) &&
    arith .sbcImm (0x80#8, 0x01#8, true, 0x7F#8, false, true, false, true) &&
    arith .sbcImm (0x10#8, 0x10#8, true, 0x00#8, false, false, true, true) &&
    arith .sbcImm (0x10#8, 0x10#8, false, 0xFF#8, true, false, false, false) &&
    arith .sbcImm (0x00#8, 0x00#8, false, 0xFF#8, true, false, false, false)) = true := by decide

/-- T-U31. -/
theorem test_sbcEB : (
    arith .sbcEB (0x10#8, 0x01#8, true, 0x0F#8, false, false, false, true)) = true := by decide

/-- T-G33. -/
theorem test_cmpImm_unsigned : runs (.cmpImm 0x7F#8) { start 2 with a := 0x80#8 } (fun t =>
      t.flagC && !t.flagZ && !t.flagN && t.a == 0x80#8 && !t.flagV) = true := by decide

/-- T-G31. -/
theorem test_cmpImm_less : runs (.cmpImm 0x41#8) { start 2 with a := 0x40#8 } (fun t =>
      !t.flagC && !t.flagZ && t.flagN) = true := by decide

/-- T-G36. -/
theorem test_cpxImm : runs (.cpxImm 0x10#8) { start 2 with x := 0x10#8 } (fun t =>
      t.flagC && t.flagZ && !t.flagN) = true := by decide

/-- T-G37. -/
theorem test_cpyImm : runs (.cpyImm 0x02#8) { start 2 with y := 0x01#8 } (fun t =>
      !t.flagC && !t.flagZ && t.flagN) = true := by decide

/-- T-H1. -/
theorem test_aslAcc : runs .aslAcc { start 1 with a := 0x81#8 } (fun t =>
      t.a == 0x02#8 && t.flagC && !t.flagZ && !t.flagN && t.cyclesRemaining == 2) = true := by decide

/-- T-H2. -/
theorem test_lsrAcc : runs .lsrAcc { start 1 with a := 0x02#8 } (fun t =>
      t.a == 0x01#8 && !t.flagC && !t.flagZ && !t.flagN) = true := by decide

/-- T-H3. -/
theorem test_rolAcc : runs .rolAcc { start 1 with a := 0x40#8, flagC := true } (fun t =>
      t.a == 0x81#8 && !t.flagC && t.flagN && !t.flagZ) = true := by decide

/-- T-H4. -/
theorem test_rorAcc : runs .rorAcc { start 1 with a := 0x01#8, flagC := true } (fun t =>
      t.a == 0x80#8 && t.flagC && t.flagN && !t.flagZ) = true := by decide

/-- T-H5. -/
theorem test_aslZp : runs (.aslZp 0x10#8) { start 2 with ram := [(0x10, 0x80#8)] } (fun t =>
      t.flagC && t.flagZ && !t.flagN && at' t 0x10 == 0x00#8 && t.cyclesRemaining == 5) = true := by decide

/-- T-H6. -/
theorem test_rorAbs : runs (.rorAbs 0x0200#16) { start 3 with ram := [(0x200, 0x01#8)] } (fun t =>
      t.flagC && t.flagZ && !t.flagN && at' t 0x200 == 0x00#8 && t.cyclesRemaining == 6) = true := by decide

/-- T-H7. -/
theorem test_lsrZpx : runs (.lsrZpx 0xFF#8) { start 2 with x := 0x01#8, ram := [(0x0, 0xFF#8)] } (fun t =>
      t.flagC && !t.flagZ && !t.flagN && at' t 0x0 == 0x7F#8 && t.cyclesRemaining == 6) = true := by decide

/-- T-H8. -/
theorem test_rolZp : runs (.rolZp 0x10#8) { start 2 with flagC := true, ram := [(0x10, 0x80#8)] } (fun t =>
      t.flagC && !t.flagZ && !t.flagN && at' t 0x10 == 0x01#8 && t.cyclesRemaining == 5) = true := by decide

/-- T-H9. -/
theorem test_incZp : runs (.incZp 0x10#8) { start 2 with flagC := true, ram := [(0x10, 0xFF#8)] } (fun t =>
      t.flagZ && !t.flagN && t.flagC && at' t 0x10 == 0x00#8 && t.cyclesRemaining == 5) = true := by decide

/-- T-H10. -/
theorem test_decAbs : runs (.decAbs 0x0200#16) (start 3) (fun t =>
      !t.flagZ && t.flagN && at' t 0x200 == 0xFF#8 && t.cyclesRemaining == 6) = true := by decide

/-- T-H11. -/
theorem test_incAbx_fixed : runs (.incAbx 0x02F0#16) { start 3 with x := 0x10#8, ram := [(0x300, 0x7F#8)] } (fun t =>
      t.flagN && at' t 0x300 == 0x80#8 && t.cyclesRemaining == 7) = true := by decide

/-- T-H12. -/
theorem test_decZp : runs (.decZp 0x10#8) { start 2 with ram := [(0x10, 0x01#8)] } (fun t =>
      t.flagZ && at' t 0x10 == 0x00#8) = true := by decide

/-- T-H13. -/
theorem test_inx : runs .inx { start 1 with x := 0xFF#8 } (fun t =>
      t.x == 0x00#8 && t.flagZ && !t.flagN) = true := by decide

/-- T-H14. -/
theorem test_iny : runs .iny { start 1 with y := 0x7F#8, flagV := true } (fun t =>
      t.y == 0x80#8 && !t.flagZ && t.flagN && t.flagV) = true := by decide

/-- T-H15. -/
theorem test_dex : runs .dex { start 1 with x := 0x01#8 } (fun t =>
      t.x == 0x00#8 && t.flagZ && !t.flagN) = true := by decide

/-- T-H16. -/
theorem test_dey : runs .dey { start 1 with y := 0x00#8 } (fun t =>
      t.y == 0xFF#8 && !t.flagZ && t.flagN) = true := by decide

/-- T-C1. -/
theorem test_jmpAbs : runs (.jmpAbs 0xC000#16) (start 3) (fun t =>
      t.pc == 0xC000#16 && t.cyclesRemaining == 3) = true := by decide

/-- T-C2. -/
theorem test_jsr : runs (.jsr 0x9010#16) (start 3) (fun t =>
      t.sp == 0xFB#8 && t.pc == 0x9010#16 && at' t 0x1fd == 0x80#8 && at' t 0x1fc == 0x02#8 &&
      t.cyclesRemaining == 6) = true := by decide

/-- T-C4. -/
theorem test_jsr_stack_wraps : runs (.jsr 0x1234#16) { start 3 with sp := 0x00#8, pc := 0x8101#16 } (fun t =>
      t.sp == 0xFE#8 && t.pc == 0x1234#16 && at' t 0x100 == 0x81#8 && at' t 0x1ff == 0x00#8) = true := by decide

/-- T-C3. -/
theorem test_rts : runs .rts { start 1 with sp := 0xFB#8, ram := [(0x1fc, 0x02#8), (0x1fd, 0x80#8)] } (fun t =>
      t.pc == 0x8003#16 && t.sp == 0xFD#8 && t.cyclesRemaining == 6) = true := by decide

/-- T-C5. -/
theorem test_rts_wraps : runs .rts { start 1 with sp := 0xFE#8, ram := [(0x100, 0xFF#8), (0x1ff, 0xFF#8)] } (fun t =>
      t.pc == 0x0000#16 && t.sp == 0x00#8) = true := by decide

/-- T-C6. -/
theorem test_rti : runs .rti { start 1 with sp := 0xFA#8, flagC := true, flagI := true, ram := [(0x1fb, 0x20#8), (0x1fc, 0x05#8), (0x1fd, 0x80#8)] } (fun t =>
      !t.flagN && !t.flagV && !t.flagD && !t.flagI && !t.flagZ && !t.flagC && t.pc == 0x8005#16 && t.sp ==
      0xFD#8 && t.cyclesRemaining == 6) = true := by decide

/-- A blank cartridge with vector bytes 0xFFFA to 0xFFFF in its image (variant A, one program bank). -/
def vectors (bs : List Byte) : Cartridge :=
  { blankCartridge with image := Memory.ofBytes 0 [0x4E#8, 0x45#8, 0x53#8, 0x1A#8, 0x01#8] ++ Memory.ofBytes 0x400A bs }

/-- T-C7: BRK at 0x8000. -/
theorem test_brk : runs .brk
      { start 1 with flagZ := true, flagC := true, cart := some (vectors [0#8, 0#8, 0#8, 0#8, 0x00#8, 0x90#8]) }
      (fun t => at' t 0x1FD == 0x80#8 && at' t 0x1FC == 0x02#8 && at' t 0x1FB == 0x33#8 && t.sp == 0xFA#8 &&
        t.flagI && t.pc == 0x9000#16 && t.cyclesRemaining == 7) = true := by decide

/-- T-C8: BRK at 0x80FF. -/
theorem test_brk_page_end : runs .brk
      { start 1 with pc := 0x8100#16, flagD := true, flagI := true
                     cart := some (vectors [0#8, 0#8, 0#8, 0#8, 0x34#8, 0x12#8]) }
      (fun t => at' t 0x1FD == 0x81#8 && at' t 0x1FC == 0x01#8 && at' t 0x1FB == 0x3C#8 &&
        t.pc == 0x1234#16 && t.flagD) = true := by decide

/-- T-C10. -/
theorem test_bpl : runs (.bpl 0x05#8) { start 2 with pc := 0x8002#16 } (fun t =>
      t.pc == 0x8007#16 && t.cyclesRemaining == 3) = true := by decide

/-- T-C10. -/
theorem test_bpl_not_taken : runs (.bpl 0x05#8) { start 2 with pc := 0x8002#16, flagN := true } (fun t =>
      t.pc == 0x8002#16 && t.cyclesRemaining == 2) = true := by decide

/-- T-C11. -/
theorem test_bmi : runs (.bmi 0xFE#8) { start 2 with pc := 0x8002#16, flagN := true } (fun t =>
      t.pc == 0x8000#16 && t.cyclesRemaining == 3) = true := by decide

/-- T-C12. -/
theorem test_bvc_cross : runs (.bvc 0x20#8) { start 2 with pc := 0x80F2#16 } (fun t =>
      t.pc == 0x8112#16 && t.cyclesRemaining == 4) = true := by decide

/-- T-C13. -/
theorem test_bvs_not_taken : runs (.bvs 0x10#8) { start 2 with pc := 0x8002#16 } (fun t =>
      t.pc == 0x8002#16 && t.cyclesRemaining == 2) = true := by decide

/-- T-C14. -/
theorem test_bcc_backwards : runs (.bcc 0x80#8) { start 2 with pc := 0x8002#16 } (fun t =>
      t.pc == 0x7F82#16 && t.cyclesRemaining == 4) = true := by decide

/-- T-C15. -/
theorem test_bcs : runs (.bcs 0x7F#8) { start 2 with pc := 0x8002#16, flagC := true } (fun t =>
      t.pc == 0x8081#16 && t.cyclesRemaining == 3) = true := by decide

/-- T-C16. -/
theorem test_bne : runs (.bne 0xFB#8) { start 2 with pc := 0x8007#16 } (fun t =>
      t.pc == 0x8002#16 && t.cyclesRemaining == 3) = true := by decide

/-- T-C18. -/
theorem test_bne_page_of_next : runs (.bne 0x7F#8) { start 2 with pc := 0x80FF#16 } (fun t =>
      t.pc == 0x817E#16 && t.cyclesRemaining == 4) = true := by decide

/-- T-C17. -/
theorem test_beq_offset_zero : runs (.beq 0x00#8) { start 2 with pc := 0x8002#16, flagZ := true } (fun t =>
      t.pc == 0x8002#16 && t.cyclesRemaining == 3) = true := by decide

/-- T-C20. -/
theorem test_beq_wraps : runs (.beq 0x00#8) { start 2 with pc := 0x0000#16, flagZ := true } (fun t =>
      t.pc == 0x0000#16 && t.cyclesRemaining == 3) = true := by decide

/-- T-F1. -/
theorem test_clc : runs .clc { start 1 with flagC := true } (fun t =>
      !t.flagC && t.cyclesRemaining == 2) = true := by decide

/-- T-F2. -/
theorem test_sec : runs .sec (start 1) (fun t =>
      t.flagC && t.cyclesRemaining == 2) = true := by decide

/-- T-F3. -/
theorem test_cli : runs .cli { start 1 with flagI := true } (fun t =>
      !t.flagI && t.cyclesRemaining == 2) = true := by decide

/-- T-F4. -/
theorem test_sei : runs .sei (start 1) (fun t =>
      t.flagI && t.cyclesRemaining == 2) = true := by decide

/-- T-F5. -/
theorem test_clv : runs .clv { start 1 with flagV := true } (fun t =>
      !t.flagV && t.cyclesRemaining == 2) = true := by decide

/-- T-F6. -/
theorem test_cld : runs .cld { start 1 with flagD := true } (fun t =>
      !t.flagD && t.cyclesRemaining == 2) = true := by decide

/-- T-F7. -/
theorem test_sed : runs .sed (start 1) (fun t =>
      t.flagD && t.cyclesRemaining == 2) = true := by decide

/-- T-F8. -/
theorem test_nop : runs .nop { start 1 with a := 0x03#8, flagC := true } (fun t =>
      t.a == 0x03#8 && t.flagC && t.pc == 0x8001#16 && t.cyclesRemaining == 2) = true := by decide

/-- T-U1. -/
theorem test_sloZp : runs (.sloZp 0x10#8) { start 2 with a := 0x01#8, ram := [(0x10, 0x81#8)] } (fun t =>
      t.a == 0x03#8 && t.flagC && !t.flagZ && !t.flagN && at' t 0x10 == 0x02#8 && t.cyclesRemaining == 5) = true := by decide

/-- T-U2. -/
theorem test_sloIzx : runs (.sloIzx 0x10#8) { start 2 with a := 0x01#8, x := 0x04#8, ram := [(0x15, 0x02#8), (0x200, 0xC0#8)] } (fun t =>
      t.a == 0x81#8 && t.flagC && t.flagN && at' t 0x200 == 0x80#8 && t.cyclesRemaining == 8) = true := by decide

/-- T-U3. -/
theorem test_rlaZp : runs (.rlaZp 0x10#8) { start 2 with a := 0xFF#8, flagC := true, ram := [(0x10, 0x40#8)] } (fun t =>
      t.a == 0x81#8 && !t.flagC && t.flagN && at' t 0x10 == 0x81#8) = true := by decide

/-- T-U4. -/
theorem test_rlaIzy : runs (.rlaIzy 0x10#8) { start 2 with a := 0x0F#8, y := 0x01#8, flagC := true, ram := [(0x10, 0xFF#8), (0x11, 0x02#8), (0x300, 0x05#8)] } (fun t =>
      t.a == 0x0B#8 && !t.flagC && at' t 0x300 == 0x0B#8 && t.cyclesRemaining == 8) = true := by decide

/-- T-U5. -/
theorem test_sreZp : runs (.sreZp 0x10#8) { start 2 with a := 0x01#8, ram := [(0x10, 0x03#8)] } (fun t =>
      t.a == 0x00#8 && t.flagC && t.flagZ && at' t 0x10 == 0x01#8) = true := by decide

/-- T-U6. -/
theorem test_sreAbx : runs (.sreAbx 0x02FF#16) { start 3 with a := 0xFF#8, x := 0x01#8, ram := [(0x300, 0x02#8)] } (fun t =>
      t.a == 0xFE#8 && !t.flagC && t.flagN && at' t 0x300 == 0x01#8 && t.cyclesRemaining == 7) = true := by decide

/-- T-U7. -/
theorem test_rraZp : runs (.rraZp 0x10#8) { start 2 with a := 0x10#8, ram := [(0x10, 0x03#8)] } (fun t =>
      t.a == 0x12#8 && !t.flagC && !t.flagV && at' t 0x10 == 0x01#8 && t.cyclesRemaining == 5) = true := by decide

/-- T-U8. -/
theorem test_rraAby : runs (.rraAby 0x0200#16) { start 3 with a := 0x7F#8, flagC := true, ram := [(0x200, 0x01#8)] } (fun t =>
      t.a == 0x00#8 && t.flagC && t.flagZ && !t.flagV && at' t 0x200 == 0x80#8 && t.cyclesRemaining == 7) = true := by decide

/-- T-U9. -/
theorem test_saxZp : runs (.saxZp 0x10#8) { start 2 with a := 0xF0#8, x := 0x3C#8 } (fun t =>
      !t.flagZ && !t.flagN && at' t 0x10 == 0x30#8 && t.cyclesRemaining == 3) = true := by decide

/-- T-U10. -/
theorem test_saxIzx : runs (.saxIzx 0x10#8) { start 2 with a := 0xF8#8, x := 0x0F#8, ram := [(0x20, 0x02#8)] } (fun t =>
      at' t 0x200 == 0x08#8 && t.cyclesRemaining == 6) = true := by decide

/-- T-U11. -/
theorem test_saxZpy : runs (.saxZpy 0xF8#8) { start 2 with a := 0x0F#8, x := 0xFF#8, y := 0x10#8 } (fun t =>
      at' t 0x8 == 0x0F#8 && t.cyclesRemaining == 4) = true := by decide

/-- T-U12. -/
theorem test_laxZp : runs (.laxZp 0x10#8) { start 2 with ram := [(0x10, 0x80#8)] } (fun t =>
      t.a == 0x80#8 && t.x == 0x80#8 && t.flagN && t.cyclesRemaining == 3) = true := by decide

/-- T-U13. -/
theorem test_laxIzy : runs (.laxIzy 0x10#8) { start 2 with y := 0x80#8, a := 0x05#8, ram := [(0x10, 0x80#8), (0x11, 0x02#8)] } (fun t =>
      t.a == 0x00#8 && t.x == 0x00#8 && t.flagZ && t.cyclesRemaining == 6) = true := by decide

/-- T-U14. -/
theorem test_laxAby : runs (.laxAby 0x0280#16) { start 3 with y := 0x7F#8, ram := [(0x2ff, 0x7F#8)] } (fun t =>
      t.a == 0x7F#8 && t.x == 0x7F#8 && t.cyclesRemaining == 4) = true := by decide

/-- T-U15. -/
theorem test_dcpZp : runs (.dcpZp 0x10#8) { start 2 with a := 0x10#8, ram := [(0x10, 0x11#8)] } (fun t =>
      t.flagC && t.flagZ && !t.flagN && at' t 0x10 == 0x10#8 && t.cyclesRemaining == 5) = true := by decide

/-- T-U16. -/
theorem test_dcpAbs : runs (.dcpAbs 0x0200#16) (start 3) (fun t =>
      !t.flagC && !t.flagZ && !t.flagN && at' t 0x200 == 0xFF#8 && t.cyclesRemaining == 6) = true := by decide

/-- T-U17. -/
theorem test_iscZp : runs (.iscZp 0x10#8) { start 2 with a := 0x20#8, flagC := true, ram := [(0x10, 0x0F#8)] } (fun t =>
      t.a == 0x10#8 && t.flagC && !t.flagV && at' t 0x10 == 0x10#8) = true := by decide

/-- T-U18. -/
theorem test_iscZpx : runs (.iscZpx 0x10#8) { start 2 with ram := [(0x10, 0xFF#8)] } (fun t =>
      t.a == 0xFF#8 && !t.flagC && t.flagN && at' t 0x10 == 0x00#8 && t.cyclesRemaining == 6) = true := by decide

/-- T-U19. -/
theorem test_anc0B : runs (.anc0B 0x80#8) { start 2 with a := 0xFF#8 } (fun t =>
      t.a == 0x80#8 && t.flagN && t.flagC) = true := by decide

/-- T-U20. -/
theorem test_anc2B : runs (.anc2B 0x7F#8) { start 2 with a := 0xFF#8, flagC := true } (fun t =>
      t.a == 0x7F#8 && !t.flagN && !t.flagC) = true := by decide

/-- T-U21. -/
theorem test_alr : runs (.alr 0x03#8) { start 2 with a := 0xFF#8 } (fun t =>
      t.a == 0x01#8 && t.flagC) = true := by decide

/-- T-U22. -/
theorem test_alr_zero : runs (.alr 0xFE#8) { start 2 with a := 0x01#8, flagC := true } (fun t =>
      t.a == 0x00#8 && t.flagZ && !t.flagC) = true := by decide

/-- T-U24. -/
theorem test_arr_overflow : runs (.arr 0xFF#8) { start 2 with a := 0x7F#8 } (fun t =>
      t.a == 0x3F#8 && !t.flagC && t.flagV) = true := by decide

/-- T-U26. -/
theorem test_arr_carry : runs (.arr 0xC0#8) { start 2 with a := 0xFF#8, flagC := true } (fun t =>
      t.a == 0xE0#8 && t.flagN && t.flagC && !t.flagV) = true := by decide

/-- T-U28. -/
theorem test_axs_borrow : runs (.axs 0x20#8) { start 2 with a := 0x0F#8, x := 0xF0#8 } (fun t =>
      t.x == 0xE0#8 && !t.flagC && t.flagN) = true := by decide

/-- T-U29. -/
theorem test_axs_ignores_carry : runs (.axs 0x00#8) { start 2 with a := 0xFF#8, x := 0x80#8 } (fun t =>
      t.x == 0x80#8 && t.flagC && t.flagN) = true := by decide

/-- T-U32. -/
theorem test_nop1A : runs .nop1A (start 1) (fun t =>
      t.pc == 0x8001#16 && t.cyclesRemaining == 2) = true := by decide

/-- T-U34. -/
theorem test_nop04 : runs (.nop04 0x10#8) { start 2 with a := 0x03#8, ram := [(0x10, 0xFF#8)] } (fun t =>
      t.a == 0x03#8 && !t.flagZ && !t.flagN && t.cyclesRemaining == 3) = true := by decide

/-- T-U35. -/
theorem test_nop14 : runs (.nop14 0x10#8) { start 2 with x := 0x01#8 } (fun t =>
      t.cyclesRemaining == 4) = true := by decide

/-- T-U37. -/
theorem test_nop1C_cross : runs (.nop1C 0x02FF#16) { start 3 with x := 0x01#8 } (fun t =>
      t.cyclesRemaining == 5) = true := by decide

/-- T-U38. -/
theorem test_nop3C_no_cross : runs (.nop3C 0x2000#16) { start 3 with x := 0x02#8 } (fun t =>
      t.cyclesRemaining == 4) = true := by decide

/-- T-U36: the absolute NOP does not read 0x2002, so vblank stays. -/
theorem test_nop0C_does_not_read : runs (.nop0C 0x2002#16)
      { start 3 with ppu := { Ppu.reset with vblank := true } }
      (fun t => t.ppu.vblank && t.cyclesRemaining == 4) = true := by decide

/-- T-U39. -/
theorem test_kil02 : runs .kil02 (start 1) (fun t =>
      t.pc == 0x8000#16 && t.cyclesRemaining == 2) = true := by decide

/-- T-U40. -/
theorem test_kilF2 : runs .kilF2 { start 1 with pc := 0x1235#16 } (fun t =>
      t.pc == 0x1234#16 && t.cyclesRemaining == 2) = true := by decide

/-- T-U41: an unstable opcode is refused by name. -/
theorem test_shx_refused : (match exec (.shx 0x0200#16) (start 3) with
    | .refused (.unstableOpcode op) => op == 0x9E#8
    | _ => false) = true := by decide

/-! Interrupts: one processor cycle of the CPU. -/

/-- One CPU cycle answers a state that passes the test. -/
def cycles (s : State) (p : State → Bool) : Bool :=
  match cpuStep s with
  | .next t => p t
  | .fault _ => false
  | .refused _ => false

/-- The state before T-I1, without the interrupt. -/
def interrupted : State :=
  { start 0 with pc := 0x8123#16, flagN := true, flagC := true
                 cart := some (vectors [0x00#8, 0xC0#8, 0#8, 0#8, 0x00#8, 0xD0#8]) }

/-- T-I1: NMI. -/
theorem test_nmi_entry : cycles { interrupted with nmiPending := true } (fun t =>
      at' t 0x1FD == 0x81#8 && at' t 0x1FC == 0x23#8 && at' t 0x1FB == 0xA1#8 && t.sp == 0xFA#8 &&
        t.flagI && t.pc == 0xC000#16 && !t.nmiPending && t.cyclesRemaining == 6) = true := by decide

/-- T-I2: IRQ with I clear. -/
theorem test_irq_entry : cycles { interrupted with irqPending := true } (fun t =>
      at' t 0x1FB == 0xA1#8 && t.pc == 0xD000#16 && t.flagI && t.irqPending) = true := by decide

/-- T-I3: IRQ with I set; the byte at 0x8123 is 0, a BRK, whose pushed status has the break bit. -/
theorem test_irq_masked : cycles { interrupted with irqPending := true, flagI := true } (fun t =>
      at' t 0x1FB == 0xB5#8 && at' t 0x1FC == 0x25#8) = true := by decide

/-- T-I4: the NMI has priority. -/
theorem test_nmi_before_irq : cycles { interrupted with nmiPending := true, irqPending := true } (fun t =>
      t.pc == 0xC000#16 && t.irqPending) = true := by decide

/-- T-I5: an instruction in flight only counts down. -/
theorem test_waiting : cycles { interrupted with nmiPending := true, cyclesRemaining := 3 } (fun t =>
      t.cyclesRemaining == 2 && t.nmiPending && t.pc == 0x8123#16) = true := by decide

/-- T-I6: the pushes wrap inside page 1. -/
theorem test_nmi_stack_wraps : cycles { start 0 with sp := 0x01#8, nmiPending := true } (fun t =>
      at' t 0x101 == 0x80#8 && at' t 0x100 == 0x00#8 && at' t 0x1FF == 0x20#8 && t.sp == 0xFE#8) = true := by
  decide

/-! The bus. -/

/-- T-B1. -/
theorem test_ram_mirrors :
    (let t := busWrite (start 0) 0x07FF#16 0xAA#8
     busPeek t 0x0FFF#16 == 0xAA#8 && busPeek t 0x17FF#16 == 0xAA#8 && busPeek t 0x1FFF#16 == 0xAA#8) = true := by
  decide

/-- T-B2, T-P7. -/
theorem test_status_read :
    (let s := { start 0 with ppu := { Ppu.reset with vblank := true, spriteZeroHit := true, w := true } }
     let r := busRead s 0x3FFA#16
     r.1 == 0xC0#8 && busPeek r.2 0x2002#16 == 0x40#8 && !r.2.ppu.w && busPeek s 0x2002#16 == 0xC0#8) = true := by
  decide

/-- T-B3, T-P8: a control write at a mirror raises the NMI while vblank is set, once. -/
theorem test_control_write_raises_nmi :
    (let t := busWrite { start 0 with ppu := { Ppu.reset with vblank := true } } 0x2008#16 0x80#8
     t.nmiPending && t.ppu.nmiEnable &&
       !(busWrite { t with nmiPending := false } 0x2000#16 0x80#8).nmiPending) = true := by decide

/-- T-B4, T-B5: unmapped reads. -/
theorem test_unmapped :
    (let s := { start 0 with cart := some (vectors []) }
     busPeek s 0x4000#16 == 0#8 && busPeek s 0x4014#16 == 0#8 && busPeek s 0x4018#16 == 0#8 &&
       busPeek s 0x4020#16 == 0#8 && busPeek s 0x5FFF#16 == 0#8) = true := by decide

/-- T-B6, T-B7: program RAM of variant A and of the variants without. -/
theorem test_program_ram :
    (let a := { start 0 with cart := some (vectors []) }
     let c := { start 0 with cart := some { vectors [] with regs := .variantC 0#8 } }
     busPeek (busWrite a 0x6000#16 0x55#8) 0x6000#16 == 0x55#8 &&
       busPeek (busWrite c 0x6000#16 0x55#8) 0x6000#16 == 0x00#8 &&
       busPeek (busWrite a 0x8000#16 0x12#8) 0x8000#16 == busPeek a 0x8000#16) = true := by decide

/-- T-J1: the first three reads of a port holding buttons 0, 4 and 7. -/
theorem test_controller :
    (let s := { start 0 with port1 := { current := 0x91#8, latched := 0x91#8 } }
     let r1 := busRead s 0x4016#16
     let r2 := busRead r1.2 0x4016#16
     r1.1 == 0x41#8 && r1.2.port1.latched == 0xC8#8 && r2.1 == 0x40#8) = true := by decide

/-- T-D1 and T-D2: the parity of the processor cycle of the write. -/
theorem test_dma_start :
    (let even := busWrite { start 0 with masterCycle := 9246 } 0x4014#16 0x02#8
     let odd := busWrite { start 0 with masterCycle := 9255 } 0x4014#16 0x02#8
     even.inDma && even.dmaPage == 0x02#8 && even.dmaCounter == 1 && odd.dmaCounter == 0) = true := by decide

/-- R352: with DMA_LENGTH given, the parity of the cycle does not matter. -/
theorem test_dma_length :
    (let long (l : DmaLength) (n : Nat) : Bool :=
       longDma { start 0 with masterCycle := n, args := { Arguments.default with dmaLength := l } }
     !long .always513 9246 && !long .always513 9255 && long .always514 9246 && long .always514 9255) = true := by
  decide

/-! The picture unit. -/

/-- T-P1 to T-P5: scroll and address writes in sequence. -/
theorem test_scroll_writes :
    (let t1 := busWrite (start 0) 0x2005#16 0x7D#8
     let t2 := busWrite t1 0x2005#16 0x5E#8
     let t3 := busWrite t2 0x2000#16 0x03#8
     let t4 := busWrite t3 0x2006#16 0x3D#8
     let t5 := busWrite t4 0x2006#16 0xF0#8
     t1.ppu.t == 0x000F#15 && t1.ppu.fineX == 5#3 && t1.ppu.w && t2.ppu.t == 0x616F#15 && !t2.ppu.w &&
       t3.ppu.t == 0x6D6F#15 && t4.ppu.t == 0x3D6F#15 && t4.ppu.v == 0x0000#15 && t5.ppu.v == 0x3DF0#15) = true := by
  decide

/-- T-P9: the read buffer. -/
theorem test_data_port_buffer :
    (let s := { start 0 with ppu := { Ppu.reset with v := 0x2000#15 }
                             cart := some { vectors [] with ntRam := [(0, 0xAB#8), (1, 0xCD#8)] } }
     let r1 := busRead s 0x2007#16
     let r2 := busRead r1.2 0x2007#16
     r1.1 == 0x00#8 && r1.2.ppu.v == 0x2001#15 && r2.1 == 0xAB#8 && busPeek r2.2 0x2007#16 == 0xCD#8) = true := by
  decide

/-- T-P11, T-P13: a palette write through a mirror, and greyscale. -/
theorem test_palette :
    (let t := busWrite { start 0 with ppu := { Ppu.reset with v := 0x3F10#15 } } 0x2007#16 0x0F#8
     let g := { start 0 with ppu := { Ppu.reset with v := 0x3F01#15, greyscale := true, palette := [(1, 0x2C#8)] } }
     Memory.read t.ppu.palette 0 == 0x0F#8 && busPeek g 0x2007#16 == 0x20#8) = true := by decide

/-- T-P12. -/
theorem test_palIndex :
    [palIndex 0x3F00#14, palIndex 0x3F10#14, palIndex 0x3F14#14, palIndex 0x3F11#14, palIndex 0x3F1C#14,
     palIndex 0x3FE5#14, palIndex 0x3FF0#14] = [0x00, 0x00, 0x04, 0x11, 0x0C, 0x05, 0x00] := by decide

/-- T-P16. -/
theorem test_oam_data :
    (let t := busWrite { start 0 with ppu := { Ppu.reset with oamAddr := 0xFF#8 } } 0x2004#16 0x12#8
     Memory.read t.ppu.oam 0xFF == 0x12#8 && t.ppu.oamAddr == 0#8 && busPeek t 0x2004#16 == 0#8) = true := by
  decide

/-- T-P20 to T-P23. -/
theorem test_incX :
    [incX 0x0005#15, incX 0x001F#15, incX 0x041F#15, incX 0x7BFF#15] =
      [0x0006#15, 0x0400#15, 0x0000#15, 0x7FE0#15] := by decide

/-- T-P24 to T-P29. -/
theorem test_incY :
    [incY 0x2000#15, incY 0x70A0#15, incY 0x73A0#15, incY 0x7BA0#15, incY 0x73E0#15, incY 0x7FFF#15] =
      [0x3000#15, 0x00C0#15, 0x0800#15, 0x0000#15, 0x0000#15, 0x0C1F#15] := by decide

/-- T-P30, T-P31. -/
theorem test_reloads :
    reloadX 0x7BFF#15 0x0415#15 = 0x7FF5#15 ∧ reloadY 0x041F#15 0x7BE0#15 = 0x7FFF#15 := by decide

/-- T-T2, T-T3: the dot that sets vblank, and the odd-frame skip. -/
theorem test_dots :
    (let a := (ppuStep { start 0 with ppu := { Ppu.reset with scanline := 241, dot := 1, nmiEnable := true } })
     let b := (ppuStep { start 0 with ppu := { Ppu.reset with scanline := 261, dot := 339, oddFrame := true } })
     a.ppu.vblank && a.nmiPending && b.ppu.dot == 0 && b.ppu.scanline == 0) = true := by decide

/-! The audio unit. -/

/-- T-Q1, T-Q3: a length load while enabled, and disabling. -/
theorem test_length_load :
    (let t1 := busWrite (start 0) 0x4015#16 0x01#8
     let t2 := busWrite t1 0x4003#16 0x08#8
     let t3 := busWrite t2 0x4015#16 0x00#8
     t2.apu.p1.length == 254 && t2.apu.p1.env.envStart && t2.apu.p1.dutyIndex == 0#3 && t3.apu.p1.length == 0) = true := by
  decide

/-- T-Q2: no load while disabled. -/
theorem test_length_no_load : (busWrite (start 0) 0x4003#16 0x08#8).apu.p1.length = 0 := by decide

/-- The tables of R480, R485, R486, R490, R491, R500 by hand: triangle period and length, noise period, DMC rate,
sample address and length, and the restart of the DMC at them. -/
theorem test_channel_registers :
    (let t1 := busWrite (busWrite (start 0) 0x4015#16 0x0F#8) 0x400A#16 0x34#8
     let t2 := busWrite (busWrite t1 0x400B#16 0xFA#8) 0x400E#16 0x8F#8
     let t3 := busWrite (busWrite t2 0x4010#16 0xC0#8) 0x4012#16 0x02#8
     let t4 := busWrite (busWrite t3 0x4013#16 0x01#8) 0x4015#16 0x10#8
     t2.apu.tri.timer == 0x234#11 && t2.apu.tri.length == 30 && t2.apu.tri.linearReload && t2.apu.noise.tonal &&
       t2.apu.noise.timer == 4067 && t3.apu.dmc.timer == 427 && t3.apu.dmc.irqEnable && t3.apu.dmc.loop &&
       t3.apu.dmc.sampleAddress == 0xC080#16 && t4.apu.dmc.sampleLength == 17 && t4.apu.dmc.bytesLeft == 17 &&
       t4.apu.dmc.address == 0xC080#16 && t4.apu.tri.length == 0) = true := by decide

/-- T-Q4. -/
theorem test_lengthTable : [lengthOf 0xF8#8, lengthOf 0x18#8, lengthOf 0x00#8] = [30, 2, 10] := by decide

/-- T-Q6 to T-Q8: sweep targets. -/
theorem test_sweep :
    (let p := { Pulse.reset with timer := 0x100#11, sweepShift := 1#3, sweepNegate := true }
     let h := { Pulse.reset with timer := 0x600#11, sweepShift := 1#3 }
     (Pulse.updateSweep true p).sweepTarget == 0x7F && (Pulse.updateSweep false p).sweepTarget == 0x80 &&
       !(Pulse.updateSweep true p).sweepMuting && (Pulse.updateSweep true h).sweepTarget == 0x900 &&
       (Pulse.updateSweep true h).sweepMuting &&
       (Pulse.updateSweep true { Pulse.reset with timer := 7#11 }).sweepMuting) = true := by decide

/-- T-Q9: the status byte, and the flag its read clears. -/
theorem test_audio_status :
    (let s := { start 0 with apu := { Apu.reset with p1 := { Pulse.reset with length := 5 }, frameIrq := true } }
     let r := busRead s 0x4015#16
     r.1 == 0x41#8 && busPeek r.2 0x4015#16 == 0x01#8) = true := by decide

/-- T-Q10, T-Q11: writes to 0x4017. -/
theorem test_frame_write :
    (let i := busWrite { start 0 with apu := { Apu.reset with frameIrq := true } } 0x4017#16 0x40#8
     let f := busWrite { start 0 with apu := { Apu.reset with p1 := { Pulse.reset with length := 254 } } }
       0x4017#16 0x80#8
     !i.apu.frameIrq && i.apu.irqInhibit && !i.apu.step5Mode && f.apu.step5Mode && f.apu.p1.length == 253) = true := by
  decide

/-- T-Q13: four envelope clocks. -/
theorem test_envelope :
    (let e := Envelope.clock^[4] { Envelope.reset with volume := 2#4, envStart := true }
     e.decay == 14#4 && e.envCounter == 2#4) = true := by decide

/-! The mappers. -/

/-- The table of nametable cells, T-M rows of section 4.8, at 0x2000, 0x2400, 0x2800, 0x2C00, 0x2FFF,
0x3EFF. -/
def cells (m : Mirroring) : List Nat :=
  [ntIndex m 0x2000#14, ntIndex m 0x2400#14, ntIndex m 0x2800#14, ntIndex m 0x2C00#14, ntIndex m 0x2FFF#14,
   ntIndex m 0x3EFF#14]

theorem test_mirroring :
    cells .horizontal = [0x000, 0x000, 0x400, 0x400, 0x7FF, 0x6FF] ∧
      cells .vertical = [0x000, 0x400, 0x000, 0x400, 0x7FF, 0x6FF] ∧
      cells .oneScreenA = [0x000, 0x000, 0x000, 0x000, 0x3FF, 0x2FF] ∧
      cells .oneScreenB = [0x400, 0x400, 0x400, 0x400, 0x7FF, 0x6FF] ∧
      cells .fourScreen = [0x000, 0x400, 0x800, 0xC00, 0xFFF, 0xEFF] := by decide

/-- T-S1, T-M1: headers. -/
theorem test_headers :
    (let h (f6 f7 : Byte) := headerOf [0x4E#8, 0x45#8, 0x53#8, 0x1A#8, 1#8, 1#8, f6, f7]
     (h 0#8 0#8).chrBase == 0x4010 && (h 0#8 0#8).minLength == 0x6010 && (h 0x41#8 0#8).mapperId == 4#8 &&
       (h 0x41#8 0#8).verticalMirroring && (h 0x12#8 0#8).battery && (h 0x70#8 0#8).mapperId == 7#8 &&
       (h 0x04#8 0#8).prgBase == 528 && (variantOf (h 0x50#8 0#8).mapperId).isNone) = true := by decide

/-- Eight program banks and a variant's registers. -/
def banked (regs : MapperRegs) : Cartridge :=
  { blankCartridge with header := { blankCartridge.header with prgBanks := 8 }, regs := regs }

/-- The program offset shown at an address, masked. -/
def shown (c : Cartridge) (a : Word) : Nat := c.prgOffset a &&& c.header.prgMask

/-- T-M2: the serial load of variant B's control register. -/
theorem test_variantB_control :
    (let r := (((((RegsB.reset.write 0x8000#16 0x80#8).write 0x8000#16 1#8).write 0x8000#16 0#8).write
       0x8000#16 0#8).write 0x8000#16 0#8).write 0x8000#16 1#8
     r.mirroring == 1#2 && r.prgMode == 0#2 && r.chrMode && r.shiftCount == 0) = true := by decide

/-- T-M3 to T-M5: program banking of variant B. -/
theorem test_variantB_banks :
    (let c (m : BitVec 2) := banked (.variantB { RegsB.reset with prgMode := m, prgBank := 5#4 })
     shown (c 3#2) 0x8000#16 == 0x14000 && shown (c 3#2) 0xC000#16 == 0x1C000 &&
       shown (c 2#2) 0x8000#16 == 0 && shown (c 2#2) 0xC000#16 == 0x14000 &&
       shown (c 0#2) 0x8000#16 == 0x10000 && shown (c 1#2) 0xC000#16 == 0x14000) = true := by decide

/-- T-M6: character banking of variant B. -/
theorem test_variantB_chr :
    (let r := { RegsB.reset with chrMode := true, chrBank0 := 3#5, chrBank1 := 0x1F#5 }
     r.chrOffset 0x0FFF#14 == 0x3FFF && r.chrOffset 0x1000#14 == 0x1F000 &&
       { r with chrMode := false }.chrOffset 0x1000#14 == 0x3000) = true := by decide

/-- T-M8, T-M17: variants C and E. -/
theorem test_variantC_variantE :
    (let c := (banked (.variantC 0#8)).cpuWrite 0x8000#16 0x0B#8
     let e := (banked (.variantE 0#4 false)).cpuWrite 0x8000#16 0x13#8
     shown c 0x8000#16 == 0x0C000 && shown c 0xC000#16 == 0x1C000 && shown e 0x8000#16 == 0x18000 &&
       ntIndex e.mirroring 0x2000#14 == 0x400) = true := by decide

/-- T-M9: the character bank of the character-select variant. -/
theorem test_cnrom : (MapperRegs.cnrom 2#8).chrOffset 0x0010#14 = 0x4010 := by decide

/-- T-M10, T-M16: program banking and mirroring of variant D. -/
theorem test_variantD_banks :
    (let c := ((banked (.variantD RegsD.reset)).cpuWrite 0x8000#16 0x06#8).cpuWrite 0x8001#16 0x03#8
     let d := c.cpuWrite 0x8000#16 0x46#8
     shown c 0x8000#16 == 0x06000 && shown c 0xC000#16 == 0x1C000 && shown c 0xE000#16 == 0x1E000 &&
       shown d 0x8000#16 == 0x1C000 && shown d 0xC000#16 == 0x06000 &&
       decide ((c.cpuWrite 0xA000#16 0x01#8).mirroring = .horizontal)) = true := by decide

/-- T-M11: character banking of variant D. -/
theorem test_variantD_chr :
    (let r := { RegsD.reset with bankReg := [(0, 5#8), (2, 9#8)] }
     r.chrOffset 0x0400#14 == 0x1400 && r.chrOffset 0x1000#14 == 0x2400 &&
       { r with chrMode := true }.chrOffset 0x1400#14 == 0x1400 &&
       { r with chrMode := true }.chrOffset 0x0000#14 == 0x2400) = true := by decide

/-- T-M12, T-M15: the scanline counter with latch 2. -/
theorem test_variantD_counter :
    (let r := { RegsD.reset with irqLatch := 2#8, irqReload := true, irqEnable := true }
     let edge (q : RegsD) := (q.clockA12 0x0000#14).clockA12 0x1000#14
     (edge r).irqCounter == 2#8 && (edge (edge r)).irqCounter == 1#8 && !(edge (edge r)).mapperIrq &&
       (edge (edge (edge r))).mapperIrq && (edge (edge (edge (edge r)))).irqCounter == 2#8 &&
       ((edge r).clockA12 0x1FF0#14).irqCounter == 2#8) = true := by decide

/-- T-M18: character RAM. -/
theorem test_chr_ram :
    (let c := { banked .variantA with chrRam := [] }
     (c.picWrite 0x0123#14 0x77#8).picPeek 0x0123#14 == 0x77#8) = true := by decide

/-! Reset and a step of the whole machine. -/

/-- T-R1: hard reset, vector bytes 0x34 and 0x92. -/
theorem test_hard_reset :
    (let t := resetWith true (vectors [0#8, 0#8, 0x34#8, 0x92#8]) { start 0 with a := 0x12#8, flagC := true }
     t.pc == 0x9234#16 && t.a == 0#8 && t.sp == 0xFD#8 && t.flagI && !t.flagC && t.cyclesRemaining == 7) = true := by
  decide

/-- T-R2: soft reset. -/
theorem test_soft_reset :
    (let t := resetWith false (vectors [0#8, 0#8, 0x34#8, 0x92#8])
       { start 0 with a := 0x12#8, sp := 0x80#8, flagC := true, ram := [(5, 0x99#8)] }
     t.a == 0x12#8 && at' t 5 == 0x99#8 && t.sp == 0xFD#8 && !t.flagC && t.flagI) = true := by decide

/-- R600 and R531 with POWER_ON_RAM given: a hard reset sets the RAMs to it, battery RAM but for. -/
theorem test_power_on_ram :
    (let p := { PowerOn.default with
       work := [(5, 0x99#8)], oam := [(7, 0x12#8)], palette := [(1, 0x2C#8)], program := [(3, 0x34#8)],
       nametable := [(2, 0x56#8), (0x900, 0x78#8)] }
     let s := { start 0 with args := { Arguments.default with powerOn := p } }
     let c := vectors [0#8, 0#8, 0x34#8, 0x92#8]
     let t := resetWith true c s
     let b := c.reset p true
     let k := { c with header := { c.header with battery := true } }.reset p true
     at' t 5 == 0x99#8 && Memory.read t.ppu.oam 7 == 0x12#8 && Memory.read t.ppu.palette 1 == 0x2C#8 &&
       Memory.read b.prgRam 3 == 0x34#8 && Memory.read k.prgRam 3 == 0#8 && Memory.read b.ntRam 2 == 0x56#8 &&
       Memory.read b.ntRam 0x900 == 0#8 && t.pc == 0x9234#16) = true := by decide

/-- A soft reset by R37 and R603, and by R381. -/
theorem test_soft_reset_picture :
    (let p := { Ppu.reset with oam := [(7, 0x12#8)], palette := [(1, 0x2C#8)], dot := 5, nmiEnable := true }
     let k := Ppu.softReset .keepsPicture p
     let z := Ppu.softReset .clearsPicture p
     Memory.read k.oam 7 == 0x12#8 && Memory.read k.palette 1 == 0x2C#8 && k.dot == 0 && !k.nmiEnable &&
       Memory.read z.oam 7 == 0#8 && Memory.read z.palette 1 == 0#8 && z.dot == 0) = true := by decide

/-- T-S7 and class (c) of R592: a saved state with one thing wrong, each refused under its own name. -/
theorem test_saved_state_errors (s u : State) (c : Cartridge) (hc : s.cart = some c)
    (h : contentsOf s.cart ≠ contentsOf u.cart) :
    let v := getState s
    let p := v.preamble
    let answer (q : Preamble) (n : Nat) := setState { preamble := q, content := s, size := n } s
    answer { p with magic := 0#8 :: p.magic } v.size = .error .badMagic ∧
      answer { p with version := p.version + 1 } v.size = .error .versionMismatch ∧
      answer p (v.size + 1) = .error .lengthMismatch ∧
      answer { p with header := some { c.header with battery := !c.header.battery } } v.size = .error .headerMismatch ∧
      answer { p with mapperVersion := p.mapperVersion.map fun m => (m.1, m.2 + 1) } v.size =
        .error .mapperVersionMismatch ∧
      setState v u = .error .cartridgeHashMismatch ∧ setState v s = .ok s := by
  have hb : { c.header with battery := !c.header.battery } ≠ c.header := fun e => by
    have := congrArg Header.battery e
    simp at this
  refine ⟨?_, ?_, ?_, ?_, ?_, by simp [setState_getState, h], by simp⟩ <;>
    simp [setState, SavedState.differs, preambleOf, headerIn, mapperVersionOf, hc, hb]

/-- A machine with a cartridge, and another image: the premises of the test above. -/
theorem test_saved_state_other_image :
    contentsOf (some (vectors [])) ≠ contentsOf (some (vectors [1#8])) := by decide

/-- A step answers a state that passes the test. -/
def steps (s : State) (p : State → Bool) : Bool :=
  match step s with
  | .next t => p t
  | .fault _ => false
  | .refused _ => false

/-- The first step after reset runs the instruction of a table word: LDA # 0x80, then one cycle is left. -/
theorem test_withFetchWord : steps (State.reset.withFetchWord 16 0x80A9) (fun t =>
      t.a == 0x80#8 && t.flagN && t.pc == 0x0002#16 && t.cyclesRemaining == 1 && t.masterCycle == 1) = true := by
  decide

/-- And with an operand word the table gives no bits. -/
theorem test_withFetchWord_short : steps (State.reset.withFetchWord 8 0x4C) (fun t => t.pc == 0x0000#16) = true := by
  decide

/-- The decoder on a table word: JSR 0x9010. -/
theorem test_decodeTableWord : decodeTableWord 24 0x901020 = some (.jsr 0x9010#16) := by decide

/-- Without a cartridge a step is refused (R365). -/
theorem test_no_cartridge : (match step State.reset with
    | .refused .noCartridge => true
    | _ => false) = true := by decide

/-! Witnesses: for every statement with hypotheses, a state and operands that meet them together; for a
statement of several clauses, one for each, at a boundary of its range. -/

/-- The state a result answers, if it answers one. -/
def answer (r : Result) : Option State :=
  match r with
  | .next t => some t
  | .fault _ => none
  | .refused _ => none

theorem next_of {r : Result} (h : (answer r).isSome = true) : ∃ t, r = .next t := by
  cases r with
  | next t => exact ⟨t, rfl⟩
  | fault e => cases h
  | refused e => cases h

/-- A machine about to run LDA # 0x80 at 0x0200, with a cartridge of variant A. -/
def machine : State :=
  { start 0 with pc := 0x0200#16, ram := [(0x200, 0xA9#8), (0x201, 0x80#8)], cart := some (vectors []) }

theorem witness_EncodeInvertsDecode :
    decode [0xA9#8, 0x80#8, 0xFF#8] = .ok (.ldaImm 0x80#8, [0xFF#8]) := rfl

theorem witness_EveryOpcodeByteDecodes : opcodeOf (.ldaImm 0x01#8) = opcodeOf (.ldaImm 0x02#8) := rfl

theorem witness_StepRunsDecodedInstruction :
    machine.cart = some (vectors []) ∧ machine.masterCycle % 3 = 0 ∧ machine.inDma = false ∧
      machine.cyclesRemaining = 0 ∧ machine.nmiPending = false ∧
      (irqSources machine = false ∨ machine.flagI = true) ∧ ¬ ReadEffectAddress machine.pc ∧
      ¬ ReadEffectAddress (machine.pc + 1#16) ∧ ¬ ReadEffectAddress (machine.pc + 2#16) ∧
      decode [busPeek machine machine.pc, busPeek machine (machine.pc + 1#16),
        busPeek machine (machine.pc + 2#16)] = .ok (.ldaImm 0x80#8, [0x00#8]) := by
  refine ⟨rfl, rfl, rfl, rfl, rfl, .inl rfl, ?_, ?_, ?_, rfl⟩ <;>
    (unfold ReadEffectAddress; decide)

/-- One byte, two bytes, an immediate NOP, three bytes. -/
theorem witness_FetchReadsEachByteOnce :
    let at3 (b0 b1 b2 : Byte) : Except DecodeError (Instr × List Byte) :=
      let s := { machine with ram := [(0x200, b0), (0x201, b1), (0x202, b2)] }
      let s1 := afterRead s s.pc
      let s2 := afterRead s1 (s.pc + 1#16)
      decode [busPeek s s.pc, busPeek s1 (s.pc + 1#16), busPeek s2 (s.pc + 2#16)]
    at3 0xEA#8 1#8 2#8 = .ok (.nop, [1#8, 2#8]) ∧ at3 0xA9#8 1#8 2#8 = .ok (.ldaImm 1#8, [2#8]) ∧
      at3 0x80#8 1#8 2#8 = .ok (.nop80 1#8, [2#8]) ∧ at3 0x4C#8 1#8 2#8 = .ok (.jmpAbs 0x0201#16, []) := by
  refine ⟨rfl, rfl, rfl, rfl⟩

/-- A transfer in progress, an instruction in flight, an NMI, an unmasked IRQ source, and an off cycle. -/
theorem witness_ProcessorAndOffCycles :
    { machine with cyclesRemaining := 1 }.cyclesRemaining = 0 + 1 ∧ machine.cart = some (vectors []) ∧
      machine.masterCycle % 3 = 0 ∧ machine.inDma = false ∧ machine.cyclesRemaining = 0 ∧
      machine.nmiPending = false ∧ { machine with inDma := true }.inDma = true ∧
      { machine with nmiPending := true }.nmiPending = true ∧
      irqSources { machine with apu := { machine.apu with frameIrq := true } } = true ∧ machine.flagI = false ∧
      { machine with masterCycle := 1 }.masterCycle % 3 ≠ 0 := by
  refine ⟨rfl, rfl, rfl, rfl, rfl, rfl, rfl, rfl, rfl, rfl, by decide⟩

/-- No cartridge; a cartridge; and a state in which the third case holds: SHX at PC. -/
theorem witness_StepStopsOnlyWhereRefused :
    State.reset.cart = none ∧ machine.cart ≠ none ∧
      (fetchInstr (beginProcessorCycle { machine with ram := [(0x200, 0x9E#8)] })).1.wf = false := by
  refine ⟨rfl, by decide, by decide⟩

/-- The default table is in range, and so is one of equal rows at each end of the range. -/
theorem witness_AdmittedInstructionsComplete :
    (Instr.ldaImm 0x80#8).wf = true ∧ (Instr.shx 0x0200#16).wf = false ∧ machine.args.cycleTable.Ok ∧
      (∀ op : Byte, 2 ≤ (⟨2, true⟩ : CycleRow).base ∧ (⟨2, true⟩ : CycleRow).base +
        (if op.toNat % 32 = 16 then 2 else carryNat (⟨2, true⟩ : CycleRow).penalty) ≤ 8) ∧
      (∀ op : Byte, 2 ≤ (⟨6, true⟩ : CycleRow).base ∧ (⟨6, true⟩ : CycleRow).base +
        (if op.toNat % 32 = 16 then 2 else carryNat (⟨6, true⟩ : CycleRow).penalty) ≤ 8) := by
  refine ⟨rfl, rfl, ⟨.nil, ?_, ?_⟩, ?_, ?_⟩
  · intro p h; cases h
  · intro p h; cases h
  · intro op; split <;> decide
  · intro op; split <;> decide

theorem witness_EffectiveAddresses : ∀ m, Operand.zp 0x10#8 ≠ .imm m := fun _ h => by cases h

/-- The stack pointer at 0, where the pushes wrap. -/
theorem witness_CallThenReturn : Memory.wf { machine with sp := 0x00#8 }.ram = true := by decide

theorem witness_ReturnUndoesEntry :
    Memory.wf machine.ram = true ∧ ∃ t, t = serviceNmi machine ∨ t = serviceIrq machine :=
  ⟨by decide, _, .inl rfl⟩

theorem witness_BoundaryServesNmiThenIrq :
    machine.cyclesRemaining = 0 ∧ { machine with nmiPending := true }.nmiPending = true ∧
      (machine.nmiPending = false ∧ { machine with irqPending := true }.irqPending = true ∧
        machine.flagI = false) ∧
      (machine.irqPending = false ∨ machine.flagI = true) := by
  refine ⟨rfl, rfl, ⟨rfl, rfl, rfl⟩, .inl rfl⟩

theorem witness_IrqLevelRecomputed :
    (∃ t, step machine = .next t ∧ machine.masterCycle % 3 = 0) ∧
      ∃ t, step { machine with masterCycle := 1 } = .next t ∧ { machine with masterCycle := 1 }.masterCycle % 3 ≠ 0 := by
  obtain ⟨t, h⟩ := next_of (r := step machine) (by decide)
  obtain ⟨u, g⟩ := next_of (r := step { machine with masterCycle := 1 }) (by decide)
  exact ⟨⟨t, h, rfl⟩, u, g, by decide⟩

theorem witness_NmiLatchClearedOnlyByService :
    ∃ t, step { machine with nmiPending := true } = .next t ∧
      { machine with nmiPending := true }.nmiPending = true ∧ t.nmiPending = false := by
  have key : ((answer (step { machine with nmiPending := true })).map (fun t => t.nmiPending)) = some false := by
    decide
  obtain ⟨t, h⟩ := next_of (r := step { machine with nmiPending := true }) (by decide)
  rw [h] at key
  injection key with key
  exact ⟨t, h, rfl, key⟩

/-- The last address of work RAM, a mirror of it, and another cell. -/
theorem witness_WorkRamReadAfterWrite :
    Memory.wf machine.ram = true ∧ (0x1FFF#16).toNat < 0x2000 ∧
      ((0x07FF#16).toNat < 0x2000 ∧ (0x07FF#16).toNat % 0x800 = (0x1FFF#16).toNat % 0x800) ∧
      ¬ ((0x2000#16).toNat < 0x2000 ∧ (0x2000#16).toNat % 0x800 = (0x1FFF#16).toNat % 0x800) := by decide

theorem witness_ReadSideEffects :
    ¬ ReadEffectAddress 0x2000#16 ∧ ¬ ReadEffectAddress 0x4014#16 ∧
      (0x2000 ≤ (0x3FFA#16).toNat ∧ (0x3FFA#16).toNat < 0x4000 ∧ (0x3FFA#16).toNat % 8 = 2) ∧
      (0x2000 ≤ (0x3FFF#16).toNat ∧ (0x3FFF#16).toNat < 0x4000 ∧ (0x3FFF#16).toNat % 8 = 7) := by
  unfold ReadEffectAddress
  decide

/-- Each range at an end: the window, the I/O addresses, the hole above them, program RAM of variant C. -/
theorem witness_UnmappedReadsZeroWritesIgnored :
    (0x2000 ≤ (0x2000#16).toNat ∧ (0x2000#16).toNat < 0x4000 ∧ (0x2000#16).toNat % 8 = 0) ∧
      (0x2000 ≤ (0x3FFE#16).toNat ∧ (0x3FFE#16).toNat < 0x4000 ∧ (0x3FFE#16).toNat % 8 = 6) ∧
      (0x4000 ≤ (0x4014#16).toNat ∧ (0x4014#16).toNat ≤ 0x4014) ∧
      (0x4018 ≤ (0x5FFF#16).toNat ∧ (0x5FFF#16).toNat < 0x6000) ∧
      (0x6000 ≤ (0x7FFF#16).toNat ∧ (0x7FFF#16).toNat < 0x8000 ∧
        ∀ c, { machine with cart := some { vectors [] with regs := .variantC 0#8 } }.cart = some c →
          c.regs.prgRamOn = false) ∧
      (0x2000 ≤ (0x3FFA#16).toNat ∧ (0x3FFA#16).toNat < 0x4000 ∧ (0x3FFA#16).toNat % 8 = 2) := by
  refine ⟨by decide, by decide, by decide, by decide, ⟨by decide, by decide, ?_⟩, by decide⟩
  intro c h
  injection h with h
  rw [← h]
  rfl

theorem witness_ImageAndVariantFixed : ∃ t, step machine = .next t := next_of (by decide)

/-- NOP writes no register and no flag: every clause of the two frames applies. -/
theorem witness_RegisterFrame :
    (∃ t, exec .nop machine = .next t) ∧ (opcodeOf .nop).toNat ∉ writesA ∧ (opcodeOf .nop).toNat ∉ writesX ∧
      (opcodeOf .nop).toNat ∉ writesY ∧ (opcodeOf .nop).toNat ∉ writesS :=
  ⟨⟨_, rfl⟩, by decide, by decide, by decide, by decide⟩

theorem witness_FlagFrame :
    (∃ t, exec .nop machine = .next t) ∧ (opcodeOf .nop).toNat ∉ writesC ∧ (opcodeOf .nop).toNat ∉ writesZ ∧
      (opcodeOf .nop).toNat ∉ writesV ∧ (opcodeOf .nop).toNat ∉ writesI ∧ (opcodeOf .nop).toNat ∉ writesD :=
  ⟨⟨_, rfl⟩, by decide, by decide, by decide, by decide, by decide⟩

theorem witness_NonStoringFrame :
    (∃ t, exec (.ldaZp 0xFF#8) machine = .next t) ∧ (opcodeOf (.ldaZp 0xFF#8)).toNat ∉ stores ∧
      (opcodeOf (.ldaZp 0xFF#8)).toNat ∉ pushes :=
  ⟨⟨_, rfl⟩, by decide, by decide⟩

/-- A store in work RAM at 0x1FFF, read at its mirror; a store at 0x7FFF, in program RAM, at 0x8000 and at 0x5FFF; a push of one byte, of two and of three, and for each the cell
next below what it pushes to, which the clause says it keeps. -/
theorem witness_StoringFrame :
    Memory.wf machine.ram = true ∧ (∀ c, machine.cart = some c → Memory.wf c.prgRam = true) ∧
      (∃ t, exec (.staAbs 0x7FFF#16) machine = .next t) ∧ (∃ t, exec (.staAbs 0x8000#16) machine = .next t) ∧
      (∃ t, exec (.staAbs 0x5FFF#16) machine = .next t) ∧ (∃ t, exec .pha machine = .next t) ∧
      storeOperand (.staAbs 0x7FFF#16) = some (.abs 0x7FFF#16) ∧
      (locate (.abs 0x1FFF#16) machine).ea.toNat < 0x2000 ∧ (∃ t, exec (.staAbs 0x1FFF#16) machine = .next t) ∧
      SameCell 0x07FF#16 (locate (.abs 0x1FFF#16) machine).ea ∧
      ProgramRamAddress machine (locate (.abs 0x7FFF#16) machine).ea ∧
      (locate (.abs 0x7FFF#16) machine).ea.toNat < 0x8000 ∧
      0x8000 ≤ (locate (.abs 0x8000#16) machine).ea.toNat ∧
      (locate (.abs 0x5FFF#16) machine).ea.toNat < 0x6000 ∧ (opcodeOf .pha).toNat ∈ pushes ∧
      (opcodeOf (.jsr 0x0200#16)).toNat ∈ pushes ∧ (opcodeOf .brk).toNat ∈ pushes ∧
      ¬ SameCell (stackAt (machine.sp - 1#8)) (stackAt machine.sp) ∧
      ¬ SameCell (stackAt (machine.sp - 2#8)) (stackAt (machine.sp - 1#8)) ∧
      ¬ SameCell (stackAt (machine.sp - 3#8)) (stackAt (machine.sp - 2#8)) := by
  refine ⟨by decide, ?_, ⟨_, rfl⟩, ⟨_, rfl⟩, ⟨_, rfl⟩, ⟨_, rfl⟩, rfl, by decide, ⟨_, rfl⟩, ?_,
    ⟨by decide, by decide, _, rfl, rfl⟩, by decide, by decide, by decide, by decide, by decide, by decide, ?_⟩
  · intro c h
    injection h with h
    rw [← h]
    decide
  · unfold SameCell; decide
  · unfold SameCell; decide

theorem witness_StatusAndControlRegisters :
    (0x2000 ≤ (0x2000#16).toNat ∧ (0x2000#16).toNat < 0x4000 ∧ (0x2000#16).toNat % 8 = 0) ∧
      (0x2000 ≤ (0x3FF9#16).toNat ∧ (0x3FF9#16).toNat < 0x4000 ∧ (0x3FF9#16).toNat % 8 = 1) ∧
      (0x2000 ≤ (0x3FFA#16).toNat ∧ (0x3FFA#16).toNat < 0x4000 ∧ (0x3FFA#16).toNat % 8 = 2) := by decide

theorem witness_ScrollAndAddressRegisters :
    (0x2000 ≤ (0x2003#16).toNat ∧ (0x2003#16).toNat < 0x4000 ∧ (0x2003#16).toNat % 8 = 3) ∧
      (0x3FFC#16).toNat % 8 = 4 ∧ ((0x2005#16).toNat % 8 = 5 ∧ machine.ppu.w = false) ∧
      ((0x3FFE#16).toNat < 0x4000 ∧ (0x3FFE#16).toNat % 8 = 6 ∧
        { machine with ppu := { Ppu.reset with w := true } }.ppu.w = true) := by decide

/-- The two sides of the palette's first address, and a canonical palette. -/
theorem witness_DataPortAndPalette :
    (0x2000 ≤ (0x2007#16).toNat ∧ (0x2007#16).toNat < 0x4000 ∧ (0x2007#16).toNat % 8 = 7) ∧
      0x3F00 ≤ { machine with ppu := { Ppu.reset with v := 0x3F00#15 } }.ppu.v.toNat % 0x4000 ∧
      { machine with ppu := { Ppu.reset with v := 0x3EFF#15 } }.ppu.v.toNat % 0x4000 < 0x3F00 ∧
      Memory.wf { Ppu.reset with palette := [(1, 0x2C#8)] }.palette = true := by decide

/-- The start of vertical blank, its end, and the line above it with both sprite flags set. -/
theorem witness_DotsPixelsVblankAndNmi :
    let p (line dot : Nat) : Ppu :=
      { Ppu.reset with scanline := line, dot := dot, spriteZeroHit := true, spriteOverflow := true }
    ((p 241 1).scanline = 241 ∧ (p 241 1).dot = 1) ∧ ((p 261 1).scanline = 261 ∧ (p 261 1).dot = 1) ∧
      (240 ≤ (p 240 0).scanline ∧ ¬ ((p 240 0).scanline = 261 ∧ (p 240 0).dot = 1) ∧
        (p 240 0).spriteZeroHit = true ∧ (p 240 0).spriteOverflow = true) ∧
      ((p 239 255).scanline < 240 ∧ (p 239 255).dot < 256 ∧ Cells.wf 0#9 (p 239 255).frameBuffer = true) ∧
      (240 ≤ (p 240 0).scanline ∨ 256 ≤ (p 240 0).dot) ∧ (240 ≤ (p 0 256).scanline ∨ 256 ≤ (p 0 256).dot) := by
  decide

/-- One dot before the end of a frame. -/
def frameEnd : State :=
  { machine with masterCycle := 1, ppu := { Ppu.reset with scanline := 239, dot := 340 } }

theorem witness_RunFrameEndsAtLine240 :
    frameEnd.ppu.dot ≤ 340 ∧ frameEnd.ppu.scanline ≤ 261 ∧ ∃ t, runFrame frameEnd = .next t := by
  refine ⟨by decide, by decide, ?_⟩
  show ∃ t, runToFrameEnd (89341 + 1) frameEnd = .next t
  obtain ⟨t, h⟩ := next_of (r := coordinatorStep frameEnd) (by decide)
  have e : ((answer (coordinatorStep frameEnd)).map atFrameEnd) = some true := by decide
  rw [h] at e
  injection e with e
  refine ⟨t, ?_⟩
  unfold runToFrameEnd
  rw [h]
  exact if_pos e

theorem pageTwo (k : Byte) : ¬ ReadEffectAddress (BitVec.ofNat 16 (256 * (0x02#8).toNat + k.toNat)) := by
  intro h
  have hk := k.isLt
  have e : (BitVec.ofNat 16 (256 * (0x02#8).toNat + k.toNat)).toNat = 512 + k.toNat := by
    rw [BitVec.toNat_ofNat]
    exact Nat.mod_eq_of_lt (by show 512 + k.toNat < 65536; omega)
  unfold ReadEffectAddress at h
  rw [e] at h
  omega

/-- A transfer about to start, its first and last read and write cycles. -/
theorem witness_OamDmaCopiesPage :
    ({ machine with dmaCounter := 1 }.dmaCounter < 2 ∧
      { machine with dmaCounter := 2 }.dmaCounter = 2 * (0#8).toNat + 2 ∧
      { machine with dmaCounter := 512 }.dmaCounter = 2 * (255#8).toNat + 2 ∧
      { machine with dmaCounter := 513 }.dmaCounter = 2 * (255#8).toNat + 3) ∧
    ∃ s : State, s.inDma = true ∧ s.dmaCounter ≤ 1 ∧ Memory.wf s.ppu.oam = true ∧
      ∀ k : Byte, ¬ ReadEffectAddress (BitVec.ofNat 16 (256 * s.dmaPage.toNat + k.toNat)) := by
  refine ⟨by decide, { machine with inDma := true, dmaCounter := 1, dmaPage := 0x02#8 }, rfl, by decide, by decide, ?_⟩
  exact pageTwo

theorem witness_FrameInterruptAfterOneSequence :
    (Apu.reset.frameCounter = 0 ∧ Apu.reset.frameIrq = false ∧ Apu.reset.step5Mode = false ∧
      Apu.reset.irqInhibit = false) ∧
    ({ Apu.reset with step5Mode := true }.step5Mode = true ∨
      { Apu.reset with step5Mode := true }.irqInhibit = true) := by decide

/-- A pulse channel that is not muted with shift 1, one muted, one of length 0, a silent noise channel. -/
theorem witness_ChannelsStayInTheirLaws :
    (let p := { Pulse.reset with timer := 8#11, sweepShift := 1#3 }
     (Pulse.updateSweep true p).sweepMuting = false ∧ (Pulse.updateSweep true p).sweepShift ≠ 0#3) ∧
      (Pulse.reset.length = 0 ∨ Pulse.reset.sweepMuting = true) ∧ Noise.reset.length = 0 ∧
      Noise.reset.shift ≠ 0#15 := by decide

theorem witness_MapperRegisterWrites :
    machine.cart = some (vectors []) ∧ 0x8000 ≤ (0x8000#16).toNat ∧ 0x8000 ≤ (0xFFFF#16).toNat ∧
    128 ≤ (0x80#8).toNat ∧ RegsB.reset.shiftReg = 0#5 ∧ RegsB.reset.shiftCount = 0 ∧ (0x7F#8).toNat < 128 :=
  ⟨rfl, by decide⟩

theorem witness_ScanlineCounterOfVariantD :
    let r := { RegsD.reset with irqLatch := 2#8, irqReload := true, irqEnable := true }
    (0x0FFF#14).toNat < 0x1000 ∧ 0x1000 ≤ (0x1FFF#14).toNat ∧ (0x1FFF#14).toNat < 0x2000 ∧
      r.irqReload = true ∧ r.mapperIrq = false ∧ r.lastA12 = false ∧ r.irqEnable = true ∧
      3 ≤ r.irqLatch.toNat + 1 ∧ { r with irqEnable := false }.irqEnable = false ∧ 0x2000 ≤ (0x2000#14).toNat := by
  decide

/-- Each class of variants, at the first program address and at the last 8 KB. -/
theorem witness_VectorsAfterReset :
    (banked (.variantB RegsB.reset)).header.countsOk = true ∧ 0x8000 ≤ (0x8000#16).toNat ∧
      0xE000 ≤ (0xE000#16).toNat ∧
      ((banked (.variantB RegsB.reset)).regs.variant = 1 ∨ (banked (.variantB RegsB.reset)).regs.variant = 2 ∨
        (banked (.variantB RegsB.reset)).regs.variant = 4) ∧
      ((banked .variantA).regs.variant = 0 ∨ (banked .variantA).regs.variant = 3 ∨
        (banked .variantA).regs.variant = 7) := by decide

/-- A shortest image: the header of one program bank and 16 KB of zeros. -/
def image : List Byte :=
  [0x4E#8, 0x45#8, 0x53#8, 0x1A#8, 1#8, 0#8, 0#8, 0#8, 0#8, 0#8, 0#8, 0#8, 0#8, 0#8, 0#8, 0#8] ++
    List.replicate 0x4000 0x00#8

theorem witness_LoadAcceptsExactlyValidImages :
    16 ≤ image.length ∧ image.take 4 = [0x4E#8, 0x45#8, 0x53#8, 0x1A#8] ∧
      (headerOf image).minLength ≤ image.length ∧ (headerOf image).mapperId.toNat ∈ [0, 1, 2, 3, 4, 7] ∧
      (headerOf image).countsOk = true ∧ ∃ t, loadCartridge image machine = .ok t := by
  have hl : image.length = 16400 := by
    unfold image
    rw [List.length_append, List.length_replicate]
    rfl
  have ht : image.take 4 = magic := rfl
  have hm : (headerOf image).minLength = 16400 := rfl
  have hc : (headerOf image).countsOk = true := rfl
  have hv : variantOf (headerOf image).mapperId = some .variantA := rfl
  refine ⟨by omega, ht, by omega, by decide, hc, ?_⟩
  have : ∃ c, cartridgeOf machine.args.powerOn image = .ok c := by
    unfold cartridgeOf
    dsimp only
    rw [if_neg (by omega), if_neg (by simp [ht]), if_neg (by omega), hv]
    dsimp only
    rw [if_pos hc]
    exact ⟨_, rfl⟩
  obtain ⟨c, hc⟩ := this
  unfold loadCartridge
  rw [hc]
  exact ⟨_, rfl⟩

/-- Both readings of a soft reset, both headers, the last index of each RAM, and the cost table of equal rows at the
lower end of the range. -/
theorem witness_ResetKeepsAndClears :
    machine.args.softReset = .keepsPicture ∧
      { machine.args with softReset := .clearsPicture }.softReset = .clearsPicture ∧
      (∃ t, hostReset true (machine.withPowerOn fun _ _ => 0x01#8) = .next t ∧ t.cart.isSome = true) ∧
      (0x7FF < 0x800 ∧ 0xFF < 0x100 ∧ 0x1F < 0x20 ∧ 0x7FF < (vectors []).header.ntSize ∧ 0x1FFF < 0x2000) ∧
      State.reset.cart = none ∧ machine.cart = some (vectors []) ∧
      (banked .variantA).header.battery = false ∧
      { (banked .variantA).header with battery := true }.battery = true ∧
      (machine.withCycleTable fun _ => ⟨2, true⟩).args.cycleTable.Ok := by
  exact ⟨rfl, rfl, ⟨_, rfl, rfl⟩, by decide, rfl, rfl, rfl, rfl,
    withCycleTable_ok _ _ fun op => by split <;> decide⟩

/-- The register numbers at both ends of their range are the first and last addresses of the channels. -/
theorem witness_AudioStatusAndEnable :
    0 < 4 ∧ 3 < 4 ∧ (BitVec.ofNat 16 (0x4000 + 0) : Word) = 0x4000#16 ∧
      (BitVec.ofNat 16 (0x4010 + 3) : Word) = 0x4013#16 := by decide

theorem machine_inv : machine.Inv := by
  have nil : ∀ n, Memory.ok n [] := fun n => ⟨rfl, by simp⟩
  refine ⟨by decide, ⟨by decide, by decide⟩, by decide,
    ⟨by decide, by decide, by decide, nil _, nil _, nil _, nil _, nil _, rfl, by decide⟩,
    ⟨by decide, ⟨by decide, by decide, by decide, by decide⟩, ⟨by decide, by decide, by decide, by decide⟩,
      ⟨by decide, by decide⟩, ⟨by decide, by decide, by decide, by decide⟩,
      ⟨by decide, by decide, by decide, by decide, by decide, by decide, by decide⟩, by decide⟩, ?_, ⟨.nil, ?_, ?_⟩,
    ⟨nil _, nil _, nil _, nil _, nil _, nil _⟩⟩
  · intro c h
    injection h with h
    rw [← h]
    exact ⟨by decide, nil _, nil _, nil _, trivial⟩
  · intro p h; cases h
  · intro p h; cases h

theorem witness_ResetKeepsInvariant : machine.Inv ∧ ∃ t, hostReset false machine = .next t :=
  ⟨machine_inv, _, rfl⟩

theorem witness_StepKeepsInvariant : machine.Inv ∧ ∃ t, step machine = .next t :=
  ⟨machine_inv, next_of (by decide)⟩

end Sys2Proof.Tests
end

section
/-! PROOFS. The state (spec/10_state.md): what every step of the machine keeps of the cartridge and of the arguments,
which registers and flags an instruction changes, and the state after reset. -/

namespace Sys2Proof.Machine

/-! The cartridge and the arguments. -/

/-- Reads, and changes of the CPU's registers, keep the fixed part of the cartridge. -/
theorem fixedPart_readClosed :
    ReadClosed (fun s t => t.cart.map Cartridge.fixedPart = s.cart.map Cartridge.fixedPart) where
  trans h g := g.trans h
  regs e := by unfold RegsOnly at e; rw [e]
  read s a := (afterRead_keeps s a).1.fixedPart

/-- So do writes: a cartridge's registers and RAMs are none of it (R527, R529). -/
theorem fixedPart_writeClosed :
    WriteClosed (fun s t => t.cart.map Cartridge.fixedPart = s.cart.map Cartridge.fixedPart) := by
  intro s a x
  obtain ⟨-, -, -, -, hcart⟩ := busWrite_keeps s a x
  exact hcart

/-- No agent of a master cycle changes the image, the header, the size or the variant (R33, R528). -/
theorem step_fixedPart {s t : State} (e : step s = .next t) :
    t.cart.map Cartridge.fixedPart = s.cart.map Cartridge.fixedPart := by
  have h := fixedPart_readClosed
  have w := fixedPart_writeClosed
  obtain ⟨u, hu, rfl⟩ := h.step w (fun _ => rfl) (fun s => h.dmaStep w (fun _ _ _ _ => rfl) s) (fun _ => rfl)
    (fun s => h.apuStep (fun _ => rfl) (fun _ _ => rfl) (fun _ => rfl) s) e
  have hdot : (endMasterCycle u).cart.map Cartridge.fixedPart = u.cart.map Cartridge.fixedPart :=
    u.pic.step_cart.1.fixedPart
  exact hdot.trans hu

/-- Settles O38: the image, header and variant are kept by the CPU, the DMA engine, the audio unit and the dot of
the picture unit, and so are the arguments. -/
theorem imageAndVariantFixed : Obligations.ImageAndVariantFixed :=
  fun _ _ e => ⟨step_fixedPart e, step_args e⟩

/-! The fields that no instruction changes. -/

/-- The IRQ level, the count of master cycles, the DMA byte, the held buttons and the arguments of `t` are those
of `s`. -/
structure LinesKept (s t : State) : Prop where
  irqPending : t.irqPending = s.irqPending
  masterCycle : t.masterCycle = s.masterCycle
  dmaValue : t.dmaValue = s.dmaValue
  buttons1 : t.port1.current = s.port1.current
  buttons2 : t.port2.current = s.port2.current
  args : t.args = s.args

/-- Reading a port shifts its register and leaves the held buttons (R346). -/
theorem afterRead_buttons (s : State) (a : Word) :
    (afterRead s a).port1.current = s.port1.current ∧ (afterRead s a).port2.current = s.port2.current := by
  unfold afterRead
  split_ifs <;> exact ⟨rfl, rfl⟩

theorem linesKept_readClosed : ReadClosed LinesKept where
  trans h g :=
    ⟨g.irqPending.trans h.irqPending, g.masterCycle.trans h.masterCycle, g.dmaValue.trans h.dmaValue,
      g.buttons1.trans h.buttons1, g.buttons2.trans h.buttons2, g.args.trans h.args⟩
  regs e := by
    unfold RegsOnly at e
    rw [e]
    exact ⟨rfl, rfl, rfl, rfl, rfl, rfl⟩
  read s a :=
    ⟨afterRead_irqPending s a, afterRead_masterCycle s a, afterRead_dmaValue s a, (afterRead_buttons s a).1,
      (afterRead_buttons s a).2, afterRead_args s a⟩

theorem linesKept_writeClosed : WriteClosed LinesKept := fun s a x =>
  ⟨busWrite_irqPending s a x, busWrite_masterCycle s a x, busWrite_dmaValue s a x,
    congrArg Port.current (busWrite_port1 s a x), congrArg Port.current (busWrite_port2 s a x), busWrite_args s a x⟩

theorem exec_linesKept {i : Instr} {s t : State} (e : exec i s = .next t) : LinesKept s t :=
  linesKept_readClosed.exec e (fun _ => linesKept_writeClosed)

/-! The registers and flags an instruction changes. -/

/-- The registers and flags the rules give lists of writers for (R20 to R23). -/
inductive CpuField where
  | a | x | y | s | c | z | n | v | i | d

/-- The field has the same value in two states. -/
def CpuField.Same (s t : State) : CpuField → Prop
  | .a => t.a = s.a
  | .x => t.x = s.x
  | .y => t.y = s.y
  | .s => t.sp = s.sp
  | .c => t.flagC = s.flagC
  | .z => t.flagZ = s.flagZ
  | .n => t.flagN = s.flagN
  | .v => t.flagV = s.flagV
  | .i => t.flagI = s.flagI
  | .d => t.flagD = s.flagD

/-- The opcodes the rules list as writing the field. -/
def CpuField.writers : CpuField → List Nat
  | .a => writesA
  | .x => writesX
  | .y => writesY
  | .s => writesS
  | .c => writesC
  | .z | .n => writesZ
  | .v => writesV
  | .i => writesI
  | .d => writesD

/-- Every register and flag but those of the list `w` has the same value in two states. -/
def ChangesOnly (w : List CpuField) (s t : State) : Prop := ∀ r, r ∉ w → r.Same s t

/-- Every register and flag has the same value in `t` as in `s` unless instruction `i` is listed as writing it. -/
def ChangesAsListed (i : Instr) (s t : State) : Prop :=
  ∀ r : CpuField, (opcodeOf i).toNat ∉ r.writers → r.Same s t

theorem ChangesOnly.refl (w : List CpuField) (s : State) : ChangesOnly w s s := by
  intro r _
  cases r <;> rfl

theorem ChangesOnly.trans {w : List CpuField} {s t u : State} (h : ChangesOnly w s t) (g : ChangesOnly w t u) :
    ChangesOnly w s u := by
  intro r hr
  have h := h r hr
  have g := g r hr
  cases r <;> exact Eq.trans g h

theorem ChangesOnly.mono {w w' : List CpuField} {s t : State} (h : ChangesOnly w s t) (hw : w ⊆ w') :
    ChangesOnly w' s t :=
  fun r hr => h r (fun hm => hr (hw hm))

/-! What the shared operations change. -/

theorem afterRead_changes (w : List CpuField) (s : State) (a : Word) : ChangesOnly w s (afterRead s a) := by
  intro r _
  cases r <;> simp [CpuField.Same]

theorem busWrite_changes (w : List CpuField) (s : State) (a : Word) (x : Byte) :
    ChangesOnly w s (busWrite s a x) := by
  intro r _
  cases r <;> simp [CpuField.Same]

theorem readOperand_changes (w : List CpuField) (o : Operand) (s : State) :
    ChangesOnly w s (readOperand o s).state := by
  intro r _
  cases r <;> simp [CpuField.Same]

theorem cycles_changes (w : List CpuField) (n : Nat) (s : State) :
    ChangesOnly w s { s with cyclesRemaining := n } := by
  intro r _
  cases r <;> rfl

theorem pc_changes (w : List CpuField) (pc : Word) (s : State) : ChangesOnly w s { s with pc := pc } := by
  intro r _
  cases r <;> rfl

theorem setC_changes (b : Bool) (s : State) : ChangesOnly [.c] s { s with flagC := b } := by
  intro r hr
  cases r <;> simp_all [CpuField.Same]

/-- Writing C with the value it has changes nothing. -/
theorem setC_same_changes (w : List CpuField) {b : Bool} {s : State} (h : b = s.flagC) :
    ChangesOnly w s { s with flagC := b } := by
  subst h
  exact .refl w s

theorem setI_changes (b : Bool) (s : State) : ChangesOnly [.i] s { s with flagI := b } := by
  intro r hr
  cases r <;> simp_all [CpuField.Same]

theorem setV_changes (b : Bool) (s : State) : ChangesOnly [.v] s { s with flagV := b } := by
  intro r hr
  cases r <;> simp_all [CpuField.Same]

theorem setD_changes (b : Bool) (s : State) : ChangesOnly [.d] s { s with flagD := b } := by
  intro r hr
  cases r <;> simp_all [CpuField.Same]

theorem setS_changes (x : Byte) (s : State) : ChangesOnly [.s] s { s with sp := x } := by
  intro r hr
  cases r <;> simp_all [CpuField.Same]

theorem setZN_changes (m : Byte) (s : State) : ChangesOnly [.z, .n] s (setZN m s) := by
  intro r hr
  cases r <;> simp_all [CpuField.Same]

theorem loadA_changes (m : Byte) (s : State) : ChangesOnly [.a, .z, .n] s (loadA m s) := by
  intro r hr
  cases r <;> simp_all [CpuField.Same, loadA]

theorem loadX_changes (m : Byte) (s : State) : ChangesOnly [.x, .z, .n] s (loadX m s) := by
  intro r hr
  cases r <;> simp_all [CpuField.Same, loadX]

theorem loadY_changes (m : Byte) (s : State) : ChangesOnly [.y, .z, .n] s (loadY m s) := by
  intro r hr
  cases r <;> simp_all [CpuField.Same, loadY]

theorem loadAX_changes (m : Byte) (s : State) : ChangesOnly [.a, .x, .z, .n] s (loadAX m s) := by
  intro r hr
  cases r <;> simp_all [CpuField.Same, loadAX]

theorem oraA_changes (m : Byte) (s : State) : ChangesOnly [.a, .z, .n] s (oraA m s) := loadA_changes _ s

theorem andA_changes (m : Byte) (s : State) : ChangesOnly [.a, .z, .n] s (andA m s) := loadA_changes _ s

theorem eorA_changes (m : Byte) (s : State) : ChangesOnly [.a, .z, .n] s (eorA m s) := loadA_changes _ s

theorem adcInto_changes (m : Byte) (s : State) : ChangesOnly [.a, .c, .z, .n, .v] s (adcInto m s) := by
  intro r hr
  cases r <;> simp_all [CpuField.Same]

theorem sbcInto_changes (m : Byte) (s : State) : ChangesOnly [.a, .c, .z, .n, .v] s (sbcInto m s) :=
  adcInto_changes _ s

theorem compareWith_changes (x m : Byte) (s : State) : ChangesOnly [.c, .z, .n] s (compareWith x m s) := by
  intro r hr
  cases r <;> simp_all [CpuField.Same]

theorem bitTest_changes (m : Byte) (s : State) : ChangesOnly [.z, .n, .v] s (bitTest m s) := by
  intro r hr
  cases r <;> simp_all [CpuField.Same, bitTest]

/-- A and C from a shift of A, and Z and N from the result. -/
theorem shiftA_changes (m : Byte) (b : Bool) (s : State) :
    ChangesOnly [.a, .c, .z, .n] s (setZN m { s with a := m, flagC := b }) := by
  intro r hr
  cases r <;> simp_all [CpuField.Same]

theorem ancA_changes (m : Byte) (s : State) : ChangesOnly [.a, .c, .z, .n] s (ancA m s) := by
  intro r hr
  cases r <;> simp_all [CpuField.Same, ancA, andA]

theorem alrA_changes (m : Byte) (s : State) : ChangesOnly [.a, .c, .z, .n] s (alrA m s) := shiftA_changes _ _ s

theorem arrA_changes (m : Byte) (s : State) : ChangesOnly [.a, .c, .z, .n, .v] s (arrA m s) := by
  intro r hr
  cases r <;> simp_all [CpuField.Same, arrA]

theorem axsX_changes (m : Byte) (s : State) : ChangesOnly [.x, .c, .z, .n] s (axsX m s) := by
  intro r hr
  cases r <;> simp_all [CpuField.Same, axsX]

theorem push_changes (x : Byte) (s : State) : ChangesOnly [.s] s (push x s) := by
  intro r hr
  cases r <;> simp_all [CpuField.Same]

theorem pushWord_changes (w : Word) (s : State) : ChangesOnly [.s] s (pushWord w s) :=
  (push_changes _ s).trans (push_changes _ _)

theorem pull_changes (s : State) : ChangesOnly [.s] s (pull s).2 := by
  intro r hr
  cases r <;> simp_all [CpuField.Same]

theorem pullWord_changes (s : State) : ChangesOnly [.s] s (pullWord s).2 :=
  (pull_changes s).trans (pull_changes _)

theorem unpackP_changes (p : Byte) (s : State) : ChangesOnly [.c, .z, .n, .v, .i, .d] s (unpackP p s) := by
  intro r hr
  cases r <;> simp_all [CpuField.Same]

theorem busReadWord_changes (w : List CpuField) (s : State) (lo hi : Word) :
    ChangesOnly w s (busReadWord s lo hi).2 :=
  (afterRead_changes w s lo).trans (afterRead_changes w _ hi)

theorem interruptEntry_changes (vector : Word) (b : Bool) (ret : Word) (s : State) :
    ChangesOnly [.s, .i] s (interruptEntry vector b ret s) := by
  intro r hr
  cases r <;> simp_all [CpuField.Same, interruptEntry, pushWord]

/-- PLA: the byte pulled into A, and Z and N from it. -/
theorem pulledA_changes (s : State) : ChangesOnly [.a, .s, .z, .n] s (loadA (pull s).1 (pull s).2) :=
  ((pull_changes s).mono (by simp)).trans ((loadA_changes _ _).mono (by simp))

/-- PLP, and the first half of RTI. -/
theorem pullStatus_changes (s : State) :
    ChangesOnly [.s, .c, .z, .n, .v, .i, .d] s (unpackP (pull s).1 (pull s).2) :=
  ((pull_changes s).mono (by simp)).trans ((unpackP_changes _ _).mono (by simp))

theorem interruptReturn_changes (s : State) :
    ChangesOnly [.s, .c, .z, .n, .v, .i, .d] s (interruptReturn s) :=
  (pullStatus_changes s).trans (((pullWord_changes _).mono (by simp)).trans (pc_changes _ _ _))

/-! What an instruction of each shape changes, where every field of the list `w` lists its opcode. -/

section Shapes

variable {i : Instr} {op : Byte} {o : Operand} {w : List CpuField} {s t u : State}

theorem ChangesOnly.asListed (h : ChangesOnly w s t) (ho : opcodeOf i = op) (hw : ∀ r ∈ w, op.toNat ∈ r.writers) :
    ChangesAsListed i s t :=
  fun r hr => h r (fun hm => hr (ho ▸ hw r hm))

theorem finish_asListed {n : Nat} (e : finish n u = .next t) (h : ChangesOnly w s u) (ho : opcodeOf i = op)
    (hw : ∀ r ∈ w, op.toNat ∈ r.writers) : ChangesAsListed i s t := by
  injection e with e
  exact e ▸ (h.trans (cycles_changes w n u)).asListed ho hw

theorem implied_asListed (e : finish (cyclesOf s op false) u = .next t) (ho : opcodeOf i = op)
    (h : ChangesOnly w s u) (hw : ∀ r ∈ w, op.toNat ∈ r.writers) : ChangesAsListed i s t :=
  finish_asListed e h ho hw

theorem readWith_asListed {f : Byte → State → State} (e : readWith op o f s = .next t) (ho : opcodeOf i = op)
    (hf : ∀ m u, ChangesOnly w u (f m u)) (hw : ∀ r ∈ w, op.toNat ∈ r.writers) : ChangesAsListed i s t :=
  finish_asListed e ((readOperand_changes w o s).trans (hf _ _)) ho hw

theorem storeTo_asListed {x : Byte} (e : storeTo op o x s = .next t) : ChangesAsListed i s t := by
  refine finish_asListed (w := []) e ?_ rfl (fun _ h => by cases h)
  rw [locate_state]
  exact busWrite_changes _ _ _ _

theorem locateOnly_asListed (e : locateOnly op o s = .next t) : ChangesAsListed i s t := by
  refine finish_asListed (w := []) e ?_ rfl (fun _ h => by cases h)
  rw [locate_state]
  exact .refl _ _

theorem branch_asListed {c : Bool} {off : Byte} (e : branch op c off s = .next t) : ChangesAsListed i s t := by
  cases c
  · exact finish_asListed (w := []) e (.refl _ _) rfl (fun _ h => by cases h)
  · exact finish_asListed (w := []) e (pc_changes _ _ _) rfl (fun _ h => by cases h)

/-- A modifying instruction whose shift `f` sets the carry. -/
theorem shiftAt_asListed {f : Byte → Bool → Shifted} {g : Byte → State → State}
    (e : modifyAt op o f g s = .next t) (ho : opcodeOf i = op) (hg : ∀ m u, ChangesOnly w u (g m u))
    (hw : ∀ r ∈ .c :: w, op.toNat ∈ r.writers) : ChangesAsListed i s t := by
  refine finish_asListed e ?_ ho hw
  rw [locate_state]
  exact (afterRead_changes _ s _).trans ((busWrite_changes _ _ _ _).trans
    (((setC_changes _ _).mono (by simp)).trans ((hg _ _).mono (by simp))))

/-- A modifying instruction whose count `f` keeps the carry. -/
theorem countAt_asListed {f : Byte → Bool → Shifted} {g : Byte → State → State}
    (e : modifyAt op o f g s = .next t) (ho : opcodeOf i = op) (hf : ∀ v b, (f v b).carry = b)
    (hg : ∀ m u, ChangesOnly w u (g m u)) (hw : ∀ r ∈ w, op.toNat ∈ r.writers) : ChangesAsListed i s t := by
  refine finish_asListed e ?_ ho hw
  rw [locate_state]
  exact (afterRead_changes _ s _).trans ((busWrite_changes _ _ _ _).trans
    ((setC_same_changes w (by simp [hf])).trans (hg _ _)))

end Shapes

/-- Every instruction changes only the registers and flags that list its opcode: each family is one shape with one
change of the registers. -/
theorem exec_changesAsListed {i : Instr} {s t : State} (e : exec i s = .next t) : ChangesAsListed i s t := by
  cases i with
  | oraIzx _ | oraZp _ | oraImm _ | oraAbs _ | oraIzy _ | oraZpx _ | oraAby _ | oraAbx _ =>
    exact readWith_asListed e rfl oraA_changes (by decide)
  | sloIzx _ | sloZp _ | sloAbs _ | sloIzy _ | sloZpx _ | sloAby _ | sloAbx _ =>
    exact shiftAt_asListed e rfl oraA_changes (by decide)
  | nop04 _ | nop0C _ | nop14 _ | nop1C _ | nop34 _ | nop3C _ | nop44 _ | nop54 _ | nop5C _ | nop64 _
  | nop74 _ | nop7C _ | nopD4 _ | nopDC _ | nopF4 _ | nopFC _ => exact locateOnly_asListed e
  | aslZp _ | aslAbs _ | aslZpx _ | aslAbx _ | rolZp _ | rolAbs _ | rolZpx _ | rolAbx _ | lsrZp _ | lsrAbs _
  | lsrZpx _ | lsrAbx _ | rorZp _ | rorAbs _ | rorZpx _ | rorAbx _ =>
    exact shiftAt_asListed e rfl setZN_changes (by decide)
  | anc0B _ | anc2B _ => exact readWith_asListed e rfl ancA_changes (by decide)
  | bpl _ | bmi _ | bvc _ | bvs _ | bcc _ | bcs _ | bne _ | beq _ => exact branch_asListed e
  | jsr _ => exact implied_asListed e rfl ((pushWord_changes _ s).trans (pc_changes _ _ _)) (by decide)
  | andIzx _ | andZp _ | andImm _ | andAbs _ | andIzy _ | andZpx _ | andAby _ | andAbx _ =>
    exact readWith_asListed e rfl andA_changes (by decide)
  | rlaIzx _ | rlaZp _ | rlaAbs _ | rlaIzy _ | rlaZpx _ | rlaAby _ | rlaAbx _ =>
    exact shiftAt_asListed e rfl andA_changes (by decide)
  | bitZp _ | bitAbs _ => exact readWith_asListed e rfl bitTest_changes (by decide)
  | eorIzx _ | eorZp _ | eorImm _ | eorAbs _ | eorIzy _ | eorZpx _ | eorAby _ | eorAbx _ =>
    exact readWith_asListed e rfl eorA_changes (by decide)
  | sreIzx _ | sreZp _ | sreAbs _ | sreIzy _ | sreZpx _ | sreAby _ | sreAbx _ =>
    exact shiftAt_asListed e rfl eorA_changes (by decide)
  | alr _ => exact readWith_asListed e rfl alrA_changes (by decide)
  | jmpAbs _ | kil02 | kil12 | kil22 | kil32 | kil42 | kil52 | kil62 | kil72 | kil92 | kilB2 | kilD2 | kilF2 =>
    exact implied_asListed e rfl (pc_changes [] _ s) (by decide)
  | adcIzx _ | adcZp _ | adcImm _ | adcAbs _ | adcIzy _ | adcZpx _ | adcAby _ | adcAbx _ =>
    exact readWith_asListed e rfl adcInto_changes (by decide)
  | rraIzx _ | rraZp _ | rraAbs _ | rraIzy _ | rraZpx _ | rraAby _ | rraAbx _ =>
    exact shiftAt_asListed e rfl adcInto_changes (by decide)
  | arr _ => exact readWith_asListed e rfl arrA_changes (by decide)
  | jmpInd _ =>
    exact implied_asListed e rfl ((busReadWord_changes [] s _ _).trans (pc_changes _ _ _)) (by decide)
  | nop80 _ | nop82 _ | nop89 _ | nopC2 _ | nopE2 _ | nop1A | nop3A | nop5A | nop7A | nopDA | nop | nopFA =>
    exact implied_asListed e rfl (.refl [] s) (by decide)
  | staIzx _ | saxIzx _ | styZp _ | staZp _ | stxZp _ | saxZp _ | styAbs _ | staAbs _ | stxAbs _ | saxAbs _
  | staIzy _ | styZpx _ | staZpx _ | stxZpy _ | saxZpy _ | staAby _ | staAbx _ => exact storeTo_asListed e
  | xaa _ | ahxIzy _ | tas _ | shy _ | shx _ | ahxAby _ | lxa _ | las _ => cases e
  | ldyImm _ | ldyZp _ | ldyAbs _ | ldyZpx _ | ldyAbx _ =>
    exact readWith_asListed e rfl loadY_changes (by decide)
  | ldaIzx _ | ldaZp _ | ldaImm _ | ldaAbs _ | ldaIzy _ | ldaZpx _ | ldaAby _ | ldaAbx _ =>
    exact readWith_asListed e rfl loadA_changes (by decide)
  | ldxImm _ | ldxZp _ | ldxAbs _ | ldxZpy _ | ldxAby _ =>
    exact readWith_asListed e rfl loadX_changes (by decide)
  | laxIzx _ | laxZp _ | laxAbs _ | laxIzy _ | laxZpy _ | laxAby _ =>
    exact readWith_asListed e rfl loadAX_changes (by decide)
  | cpyImm _ | cpyZp _ | cpyAbs _ | cmpIzx _ | cmpZp _ | cmpImm _ | cmpAbs _ | cmpIzy _ | cmpZpx _ | cmpAby _
  | cmpAbx _ | cpxImm _ | cpxZp _ | cpxAbs _ =>
    exact readWith_asListed e rfl (fun _ _ => compareWith_changes _ _ _) (by decide)
  | dcpIzx _ | dcpZp _ | dcpAbs _ | dcpIzy _ | dcpZpx _ | dcpAby _ | dcpAbx _ =>
    exact countAt_asListed e rfl (fun _ _ => rfl) (fun _ _ => compareWith_changes _ _ _) (by decide)
  | decZp _ | decAbs _ | decZpx _ | decAbx _ | incZp _ | incAbs _ | incZpx _ | incAbx _ =>
    exact countAt_asListed e rfl (fun _ _ => rfl) setZN_changes (by decide)
  | axs _ => exact readWith_asListed e rfl axsX_changes (by decide)
  | sbcIzx _ | sbcZp _ | sbcImm _ | sbcEB _ | sbcAbs _ | sbcIzy _ | sbcZpx _ | sbcAby _ | sbcAbx _ =>
    exact readWith_asListed e rfl sbcInto_changes (by decide)
  | iscIzx _ | iscZp _ | iscAbs _ | iscIzy _ | iscZpx _ | iscAby _ | iscAbx _ =>
    exact countAt_asListed e rfl (fun _ _ => rfl) sbcInto_changes (by decide)
  | brk => exact implied_asListed e rfl (interruptEntry_changes _ _ _ s) (by decide)
  | php | pha => exact implied_asListed e rfl (push_changes _ s) (by decide)
  | aslAcc | rolAcc | lsrAcc | rorAcc => exact implied_asListed e rfl (shiftA_changes _ _ s) (by decide)
  | clc | sec => exact implied_asListed e rfl (setC_changes _ s) (by decide)
  | plp => exact implied_asListed e rfl (pullStatus_changes s) (by decide)
  | rti => exact implied_asListed e rfl (interruptReturn_changes s) (by decide)
  | cli | sei => exact implied_asListed e rfl (setI_changes _ s) (by decide)
  | rts => exact implied_asListed e rfl ((pullWord_changes s).trans (pc_changes _ _ _)) (by decide)
  | pla => exact implied_asListed e rfl (pulledA_changes s) (by decide)
  | dey | tay | iny => exact implied_asListed e rfl (loadY_changes _ s) (by decide)
  | txa | tya => exact implied_asListed e rfl (loadA_changes _ s) (by decide)
  | txs => exact implied_asListed e rfl (setS_changes _ s) (by decide)
  | tax | tsx | dex | inx => exact implied_asListed e rfl (loadX_changes _ s) (by decide)
  | clv => exact implied_asListed e rfl (setV_changes _ s) (by decide)
  | cld | sed => exact implied_asListed e rfl (setD_changes _ s) (by decide)

/-- Settles O39: the registers by the lists of their writers, the other fields by what reads, writes and changes of
the CPU's registers keep. -/
theorem registerFrame : Obligations.RegisterFrame := by
  intro i s t e
  have h := exec_changesAsListed e
  have k := exec_linesKept e
  exact ⟨h .a, h .x, h .y, h .s, k.irqPending, k.masterCycle, k.dmaValue, k.buttons1, k.buttons2, k.args⟩

/-- Settles O40, by the lists of the flags' writers. -/
theorem flagFrame : Obligations.FlagFrame := by
  intro i s t e
  have h := exec_changesAsListed e
  exact ⟨h .c, h .z, h .n, h .v, h .i, h .d⟩

/-! The state after reset. -/

/-- The default contents of POWER_ON_RAM list nothing. -/
theorem PowerOn.Ok.default : PowerOn.default.Ok :=
  ⟨Memory.ok_nil _, Memory.ok_nil _, Memory.ok_nil _, Memory.ok_nil _, Memory.ok_nil _, Memory.ok_nil _⟩

/-- The default cost table lists no row. -/
theorem CycleTable.Ok.nil : CycleTable.Ok [] := ⟨.nil, by simp, by simp⟩

/-- Settles O59: the RAMs and the table list nothing, there is no cartridge, and the units are at their reset
values. -/
theorem resetMeetsInvariant : Obligations.ResetMeetsInvariant where
  cyclesRemaining := by decide
  ram := Memory.ok_nil _
  dmaCounter := by decide
  ppu := Ppu.Ok.hardReset PowerOn.Ok.default
  apu := Apu.Ok.reset
  cart _ h := nomatch h
  cycleTable := CycleTable.Ok.nil
  powerOn := PowerOn.Ok.default

end Sys2Proof.Machine
end

section
/-! PROOFS. Memory (spec/20_memory.md): work RAM and its mirrors, what reads of the device registers change, the
unassigned addresses, the fetch, and what an instruction leaves in memory. -/

namespace Sys2Proof.Machine

/-! Work RAM. -/

/-- Settles O35: a write to work RAM is read back by the index modulo 0x800, and a read below 0x2000 is plain. -/
theorem workRamReadAfterWrite : Obligations.WorkRamReadAfterWrite :=
  fun _ _ _ _ hw ha => ⟨busPeek_busWrite_ram hw ha, fun hb => afterRead_plain (.inl hb)⟩

/-! What a read changes. -/

/-- The shift a port's read performs, as a number (R346). -/
theorem Port.shift_eq (p : Port) : p.shift = { p with latched := BitVec.ofNat 8 (p.latched.toNat / 2 + 128) } := by
  have h : ∀ x : Byte, (x >>> 1) ||| 0x80#8 = BitVec.ofNat 8 (x.toNat / 2 + 128) := by decide
  rw [Port.shift, h]

/-- A read of register 7 at any mirror: the address advances, the buffer is refilled, and the cartridge changes at
most by its counter (R394). -/
theorem afterRead_data {s : State} {a : Word} (h1 : 0x2000 ≤ a.toNat) (h2 : a.toNat < 0x4000) (h7 : a.toNat % 8 = 7) :
    afterRead s a =
      { s with
        ppu := { s.ppu with v := s.ppu.advance.v, readBuffer := (picRead s.cart s.ppu.busAddr).1 }
        cart := (picRead s.cart s.ppu.busAddr).2 } := by
  rw [afterRead_window h1 h2, ppuRegister_eq h7]
  show State.withPic s { s.pic with ppu := { s.ppu.advance with readBuffer := _ }, cart := _ } = _
  rw [Ppu.advance_eq]
  rfl

/-- Settles O36: one clause for each class of addresses the table of R61 lists. -/
theorem readSideEffects : Obligations.ReadSideEffects := by
  intro s a
  refine ⟨afterRead_of_not_effect, fun h1 h2 hr => ?_, fun h1 h2 hr => ?_, rfl, ?_, ?_⟩
  · rw [afterRead_window h1 h2, ppuRegister_eq hr]
    rfl
  · obtain ⟨regs, hcart, hregs⟩ := picRead_counter s.cart s.ppu.busAddr
    exact ⟨_, _, regs, by rw [afterRead_data h1 h2 hr, hcart], hregs⟩
  · rw [← Port.shift_eq]
    rfl
  · rw [← Port.shift_eq]
    rfl

/-! Unassigned addresses. -/

/-- The registers that read 0 (R386, R397). -/
theorem peekReg_writeOnly (q : Pic) {r : BitVec 3} (h2 : r ≠ 2#3) (h4 : r ≠ 4#3) (h7 : r ≠ 7#3) :
    q.peekReg r = 0x00#8 := by
  rw [Pic.peekReg, if_neg h2, if_neg h4, if_neg h7]

/-- A register other than the one of number `k` modulo 8. -/
theorem ppuRegister_ne {a : Word} {k : Nat} (hk : k < 8) (h : a.toNat % 8 ≠ k) : ppuRegister a ≠ BitVec.ofNat 3 k := by
  intro e
  apply h
  rw [← ppuRegister_toNat, e, BitVec.toNat_ofNat]
  omega

/-- The I/O window answers only at 0x4015, 0x4016 and 0x4017 (R55, R71). -/
theorem busPeek_io_unassigned {s : State} {a : Word} (h1 : 0x4000 ≤ a.toNat) (h2 : a.toNat < 0x4020)
    (h : a.toNat ≤ 0x4014 ∨ 0x4018 ≤ a.toNat) : busPeek s a = 0x00#8 := by
  have hne : ∀ b : Word, 0x4015 ≤ b.toNat → b.toNat ≤ 0x4017 → a ≠ b := by
    rintro b hb hb' rfl
    omega
  unfold busPeek
  rw [if_neg (by omega), if_neg (by omega), if_pos h2, if_neg (hne _ (by decide) (by decide)),
    if_neg (hne _ (by decide) (by decide)), if_neg (hne _ (by decide) (by decide))]

theorem busWrite_io_unassigned {s : State} {a : Word} {x : Byte} (h1 : 0x4018 ≤ a.toNat) (h2 : a.toNat < 0x4020) :
    busWrite s a x = s := by
  have hne : ∀ b : Word, b.toNat < 0x4018 → a ≠ b := by
    rintro b hb rfl
    omega
  unfold busWrite ioWrite
  rw [if_neg (by omega), if_neg (by omega), if_pos h2]
  dsimp only
  rw [if_neg (by omega), if_neg (by omega), if_neg (by omega), if_neg (by omega), if_neg (by omega),
    if_neg (hne _ (by decide)), if_neg (hne _ (by decide)), if_neg (hne _ (by decide)), if_neg (hne _ (by decide))]

theorem busPeek_cart {s : State} {a : Word} (h : 0x4020 ≤ a.toNat) : busPeek s a = cartRead s.cart a := by
  unfold busPeek
  rw [if_neg (by omega), if_neg (by omega), if_neg (by omega)]

theorem busWrite_cart {s : State} {a : Word} {x : Byte} (h : 0x4020 ≤ a.toNat) :
    busWrite s a x = { s with cart := cartWrite s.cart a x } := by
  unfold busWrite
  rw [if_neg (by omega), if_neg (by omega), if_neg (by omega)]

/-- No memory of a cartridge answers at an address: none is mapped there, or program RAM is absent or disabled. -/
def Cartridge.Absent (c : Cartridge) (a : Word) : Prop :=
  a.toNat < 0x6000 ∨ (a.toNat < 0x8000 ∧ c.regs.prgRamOn = false)

theorem Cartridge.Absent.cpuRead {c : Cartridge} {a : Word} (h : c.Absent a) : c.cpuRead a = 0x00#8 := by
  unfold Cartridge.cpuRead
  rcases h with h | ⟨h, hoff⟩
  · rw [if_pos h]
  · rw [hoff, if_pos h, if_neg Bool.false_ne_true, ite_self]

theorem Cartridge.Absent.cpuWrite {c : Cartridge} {a : Word} (h : c.Absent a) (x : Byte) : c.cpuWrite a x = c := by
  unfold Cartridge.cpuWrite
  rcases h with h | ⟨h, hoff⟩
  · rw [if_pos h]
  · rw [hoff, if_pos h, if_neg Bool.false_ne_true, ite_self]

/-- Where no memory of the cartridge answers, the bus reads 0 (R56, R527). -/
theorem busPeek_absent {s : State} {a : Word} (h : 0x4020 ≤ a.toNat) (hc : ∀ c, s.cart = some c → c.Absent a) :
    busPeek s a = 0x00#8 := by
  rw [busPeek_cart h]
  cases e : s.cart with
  | none => rfl
  | some c => exact (hc c e).cpuRead

/-- And a write there changes nothing. -/
theorem busWrite_absent {s : State} {a : Word} (h : 0x4020 ≤ a.toNat) (hc : ∀ c, s.cart = some c → c.Absent a)
    (x : Byte) : busWrite s a x = s := by
  have hcart : cartWrite s.cart a x = s.cart := by
    cases e : s.cart with
    | none => rfl
    | some c => exact congrArg some ((hc c e).cpuWrite x)
  rw [busWrite_cart h, hcart]

/-- Settles O37: the picture unit's registers, the I/O window, and the mapper's region where nothing answers. -/
theorem unmappedReadsZeroWritesIgnored : Obligations.UnmappedReadsZeroWritesIgnored := by
  intro s a x window noRam
  have habsent : (0x4020 ≤ a.toNat ∧ a.toNat < 0x6000) ∨ noRam → ∀ c, s.cart = some c → c.Absent a := by
    rintro (⟨-, h⟩ | ⟨-, h, hoff⟩) c hc
    · exact .inl h
    · exact .inr ⟨h, hoff c hc⟩
  refine ⟨fun h => ⟨?_, afterRead_of_not_effect ?_⟩, fun h => ?_⟩
  · rcases h with ⟨⟨h1, h2⟩, h⟩ | ⟨h1, h2⟩ | ⟨h1, h2⟩ | h
    · rw [busPeek_window h1 h2]
      exact peekReg_writeOnly _ (ppuRegister_ne (by omega) (by omega)) (ppuRegister_ne (by omega) (by omega))
        (ppuRegister_ne (by omega) (by omega))
    · exact busPeek_io_unassigned h1 (by omega) (.inl h2)
    · by_cases h3 : a.toNat < 0x4020
      · exact busPeek_io_unassigned (by omega) h3 (.inr h1)
      · exact busPeek_absent (by omega) (habsent (.inl ⟨by omega, h2⟩))
    · exact busPeek_absent (by have := h.1; omega) (habsent (.inr h))
  · unfold ReadEffectAddress
    rcases h with ⟨⟨h1, h2⟩, h⟩ | ⟨h1, h2⟩ | ⟨h1, h2⟩ | ⟨h1, h2, -⟩ <;> omega
  · rcases h with ⟨⟨h1, h2⟩, h⟩ | ⟨h1, h2⟩ | h
    · rw [busWrite_window h1 h2, ppuRegister_eq h]
      rfl
    · by_cases h3 : a.toNat < 0x4020
      · exact busWrite_io_unassigned h1 h3
      · exact busWrite_absent (by omega) (habsent (.inl ⟨by omega, h2⟩)) x
    · exact busWrite_absent (by have := h.1; omega) (habsent (.inr h)) x

/-! The fetch. -/

/-- The cell of an opcode byte builds instructions of that opcode byte and of the cell's length (R106, R107). -/
theorem rowOf_build (op b1 b2 : Byte) :
    opcodeOf ((rowOf op).build b1 b2) = op ∧ (encode ((rowOf op).build b1 b2)).length = (rowOf op).length := by
  obtain ⟨n, hn, rfl⟩ : ∃ n < 256, op = BitVec.ofNat 8 n := ⟨op.toNat, op.isLt, by simp⟩
  interval_cases n <;> exact ⟨rfl, rfl⟩

/-- Three bytes are always enough to build the instruction of the first one's cell. -/
theorem build_of_decode {b0 b1 b2 : Byte} {i : Instr} {rest : List Byte} (h : decode [b0, b1, b2] = .ok (i, rest)) :
    (rowOf b0).build b1 b2 = i := by
  cases hr : rowOf b0 <;> simp only [decode, hr, Except.ok.injEq, Prod.mk.injEq] at h <;> exact h.1

/-- The effect of a read does not depend on PC. -/
theorem afterRead_setPc (s : State) (pc a : Word) : afterRead { s with pc := pc } a = { afterRead s a with pc := pc } := by
  unfold afterRead
  split_ifs <;> rfl

theorem fetchByte_eq (s : State) :
    fetchByte s = (busPeek s s.pc, { afterRead s s.pc with pc := s.pc + 1#16 }) := by
  simp only [fetchByte, busRead, afterRead_pc]

/-- Fetching a byte at an address another fetch left PC at. -/
theorem fetchByte_setPc (s : State) (pc : Word) :
    fetchByte { s with pc := pc } = (busPeek s pc, { afterRead s pc with pc := pc + 1#16 }) := by
  rw [fetchByte_eq, afterRead_setPc]
  rfl

theorem operandUnread_iff (op : Byte) :
    operandUnread op = true ↔ op ∈ [0x80#8, 0x82#8, 0x89#8, 0xC2#8, 0xE2#8] := by
  simp [operandUnread, or_assoc]

/-- Settles O6: the cell of the opcode byte says how many bytes are fetched, and of which opcodes the second byte is
passed over unread. -/
theorem fetchReadsEachByteOnce : Obligations.FetchReadsEachByteOnce := by
  intro s i rest s1 s2 s3 h
  obtain rfl := build_of_decode h
  obtain ⟨hop, hlen⟩ :=
    rowOf_build (busPeek s s.pc) (busPeek s1 (s.pc + 1#16)) (busPeek s2 (s.pc + 2#16))
  have e2 : s.pc + 1#16 + 1#16 = s.pc + 2#16 := by rw [BitVec.add_assoc]; rfl
  have e3 : s.pc + 2#16 + 1#16 = s.pc + 3#16 := by rw [BitVec.add_assoc]; rfl
  rw [hop, hlen]
  unfold fetchInstr
  rw [fetchByte_eq]
  dsimp only
  cases hr : rowOf (busPeek s s.pc) with
  | one j => rfl
  | two mk =>
    by_cases hu : operandUnread (busPeek s s.pc) = true
    · simp only [hu, (operandUnread_iff _).mp hu, skipByte, if_true, e2]
      rfl
    · simp only [hu, mt (operandUnread_iff _).mpr hu, fetchByte_setPc, e2]
      rfl
  | three mk =>
    simp only [fetchByte_setPc, e2, e3]
    rfl

/-! What reads keep of memory. -/

/-- Plain memory is work RAM and what the mapper's region reads. -/
theorem plainMemoryKept_of {s t : State} (hram : t.ram = s.ram) (hcart : ∀ a, cartRead t.cart a = cartRead s.cart a) :
    PlainMemoryKept s t := by
  rintro a (h | h)
  · rw [busPeek_ram h, busPeek_ram h, hram]
  · rw [busPeek_cart h, busPeek_cart h, hcart]

/-- Work RAM, OAM, palette RAM, the strobe and the DMA registers are in `t` as in `s`, and the cartridge is the same
but for its scanline counter. -/
structure StorageKept (s t : State) : Prop where
  ram : t.ram = s.ram
  oam : t.ppu.oam = s.ppu.oam
  palette : t.ppu.palette = s.ppu.palette
  cart : SameButCounter s.cart t.cart
  strobe : t.strobe = s.strobe
  inDma : t.inDma = s.inDma
  dmaPage : t.dmaPage = s.dmaPage
  dmaCounter : t.dmaCounter = s.dmaCounter

theorem StorageKept.plain {s t : State} (h : StorageKept s t) : PlainMemoryKept s t :=
  plainMemoryKept_of h.ram h.cart.cartRead

theorem storageKept_readClosed : ReadClosed StorageKept where
  trans h g :=
    ⟨g.ram.trans h.ram, g.oam.trans h.oam, g.palette.trans h.palette, h.cart.trans g.cart, g.strobe.trans h.strobe,
      g.inDma.trans h.inDma, g.dmaPage.trans h.dmaPage, g.dmaCounter.trans h.dmaCounter⟩
  regs e := by
    unfold RegsOnly at e
    rw [e]
    exact ⟨rfl, rfl, rfl, .refl _, rfl, rfl, rfl, rfl⟩
  read s a := by
    obtain ⟨hcart, v, w, vb, rb, hppu⟩ := afterRead_keeps s a
    exact ⟨afterRead_ram s a, by rw [hppu], by rw [hppu], hcart, afterRead_strobe s a, afterRead_inDma s a,
      afterRead_dmaPage s a, afterRead_dmaCounter s a⟩

/-- Settles O41: an instruction that neither stores nor pushes is made of reads and changes of the CPU's registers. -/
theorem nonStoringFrame : Obligations.NonStoringFrame := by
  intro i s t e hs hp
  have h : StorageKept s t := storageKept_readClosed.exec e fun hw => absurd hw (not_or.mpr ⟨hs, hp⟩)
  exact ⟨h.plain, h.cart.fixedPart, h.ram, h.oam, h.palette, h.cart.rams, h.strobe, h.inDma, h.dmaPage, h.dmaCounter⟩

/-! What a write changes of plain memory. -/

/-- A write to pattern memory or to a nametable changes no byte of the mapper's region (R524). -/
theorem picWrite_cartRead (c : Option Cartridge) (a : BitVec 14) (x : Byte) (b : Word) :
    cartRead (picWrite c a x) b = cartRead c b := by
  cases c with
  | none => rfl
  | some c =>
    show (c.picWrite a x).cpuRead b = c.cpuRead b
    unfold Cartridge.picWrite Cartridge.chrWrite
    split_ifs <;> rfl

theorem picWrite_prgRam (c : Option Cartridge) (a : BitVec 14) (x : Byte) :
    (picWrite c a x).map (fun c => c.prgRam) = c.map fun c => c.prgRam := by
  cases c with
  | none => rfl
  | some c =>
    show some (c.picWrite a x).prgRam = some c.prgRam
    unfold Cartridge.picWrite Cartridge.chrWrite
    split_ifs <;> rfl

/-- A register write changes the cartridge at most through the data port (R394). -/
theorem writeReg_cart (q : Pic) (r : BitVec 3) (x : Byte) :
    (q.writeReg r x).cart = q.cart ∨ (q.writeReg r x).cart = picWrite q.cart q.ppu.busAddr x := by
  unfold Pic.writeReg Pic.writeData
  dsimp only
  split_ifs
  any_goals exact .inl rfl
  exact .inr rfl

/-- A write to a device register changes the cartridge at most through the data port (R62). -/
theorem busWrite_device_cart {s : State} {a : Word} (x : Byte) (h1 : 0x2000 ≤ a.toNat) (h2 : a.toNat < 0x4020) :
    (busWrite s a x).cart = s.cart ∨ (busWrite s a x).cart = picWrite s.cart s.ppu.busAddr x := by
  by_cases hw : a.toNat < 0x4000
  · rw [busWrite_window h1 hw]
    exact writeReg_cart s.pic _ x
  · left
    obtain ⟨_, _, _, _, _, hio⟩ := ioWrite_shape s a x
    unfold busWrite
    rw [if_neg (by omega), if_neg hw, if_pos h2, hio]

/-- A write to a device register changes no byte of plain memory. -/
theorem busWrite_device_plain {s : State} {a : Word} (x : Byte) (h1 : 0x2000 ≤ a.toNat) (h2 : a.toNat < 0x4020) :
    PlainMemoryKept s (busWrite s a x) := by
  refine plainMemoryKept_of (busWrite_ram_kept h1) fun b => ?_
  rcases busWrite_device_cart (s := s) x h1 h2 with h | h
  · rw [h]
  · rw [h, picWrite_cartRead]

/-- A write to program RAM that answers changes no other byte of the mapper's region. -/
theorem cpuRead_prgRam_other {c : Cartridge} {a b : Word} (x : Byte) (hw : Memory.wf c.prgRam = true)
    (ha : 0x6000 ≤ a.toNat ∧ a.toNat < 0x8000) (hab : b ≠ a) :
    Cartridge.cpuRead { c with prgRam := Memory.write c.prgRam (a.toNat % 0x2000) x } b = c.cpuRead b := by
  unfold Cartridge.cpuRead
  by_cases h6 : b.toNat < 0x6000
  · rw [if_pos h6, if_pos h6]
  · by_cases h8 : b.toNat < 0x8000
    · have hne : b.toNat % 0x2000 ≠ a.toNat % 0x2000 := fun e => hab (word_eq (by omega))
      rw [if_neg h6, if_neg h6, if_pos h8, if_pos h8, Memory.read_write _ _ _ hw, if_neg hne]
    · rw [if_neg h6, if_neg h6, if_neg h8, if_neg h8]
      rfl

/-- Work RAM and program RAM in canonical form. -/
def RamsWf (s : State) : Prop := Memory.wf s.ram = true ∧ ∀ c, s.cart = some c → Memory.wf c.prgRam = true

/-- A write below 0x8000 changes no byte of plain memory but the one written and its mirrors. -/
theorem busWrite_other {s : State} {a b : Word} (x : Byte) (hw : RamsWf s) (ha : a.toNat < 0x8000)
    (hb : PlainAddress b) (hab : ¬ SameCell b a) : busPeek (busWrite s a x) b = busPeek s b := by
  obtain ⟨hram, hprg⟩ := hw
  by_cases h1 : a.toNat < 0x2000
  · rw [busPeek_busWrite_ram hram h1, if_neg]
    exact fun h => hab (.inr ⟨h.1, h1, h.2⟩)
  by_cases h2 : a.toNat < 0x4020
  · exact busWrite_device_plain x (by omega) h2 b hb
  by_cases h3 : ProgramRamAddress s a
  · obtain ⟨h6, -, c, hc, hon⟩ := h3
    rw [busWrite_prgRam h6 ha hc hon]
    rcases hb with hb | hb
    · rw [busPeek_ram hb, busPeek_ram hb]
    · rw [busPeek_cart hb, busPeek_cart hb, hc]
      exact cpuRead_prgRam_other x (hprg c hc) ⟨h6, ha⟩ fun h => hab (.inl h)
  · have habsent : ∀ c, s.cart = some c → c.Absent a := by
      intro c hc
      by_cases h6 : a.toNat < 0x6000
      · exact .inl h6
      · exact .inr ⟨ha, Bool.eq_false_iff.mpr fun hon => h3 ⟨by omega, ha, c, hc, hon⟩⟩
    rw [busWrite_absent (by omega) habsent]

/-- A write outside program RAM's window leaves program RAM as it was. -/
theorem busWrite_prgRam_kept {s : State} {a : Word} (x : Byte) (h : a.toNat < 0x6000 ∨ 0x8000 ≤ a.toNat) :
    (busWrite s a x).cart.map (fun c => c.prgRam) = s.cart.map fun c => c.prgRam := by
  by_cases h1 : a.toNat < 0x2000
  · rw [busWrite_ram h1]
  by_cases h2 : a.toNat < 0x4020
  · rcases busWrite_device_cart (s := s) x (by omega) h2 with h | h
    · rw [h]
    · rw [h, picWrite_prgRam]
  rcases h with h | h
  · rw [busWrite_absent (by omega) fun _ _ => .inl h]
  · rw [busWrite_cart (by omega)]
    cases s.cart with
    | none => rfl
    | some c =>
      show some (c.cpuWrite a x).prgRam = some c.prgRam
      unfold Cartridge.cpuWrite
      rw [if_neg (by omega), if_neg (by omega)]

/-! What a storing form leaves. -/

theorem busPeek_regsOnly {s t : State} (h : RegsOnly s t) (a : Word) : busPeek t a = busPeek s a := by
  unfold RegsOnly at h
  rw [h]
  rfl

/-- A storing form is one write at its effective address, of a state that differs from the one before at most by the
effect of a read there. -/
theorem StoresAt.write {i : Instr} {o : Operand} {s t : State} (h : StoresAt i o s t) :
    ∃ u, StorageKept s u ∧ (PlainAddress (locate o s).ea → u = s) ∧
      RegsOnly (busWrite u (locate o s).ea (storedByte (opcodeOf i).toNat s (busPeek s (locate o s).ea))) t := by
  obtain ⟨u, rfl | rfl, hwrite⟩ := h
  · exact ⟨_, storageKept_readClosed.refl _, fun _ => rfl, hwrite⟩
  · exact ⟨_, storageKept_readClosed.read _ _, afterRead_plain, hwrite⟩

/-- Work RAM, and program RAM that answers, read back at the address written and its mirrors. -/
theorem busWrite_readBack {s : State} {a b : Word} (x : Byte) (hw : RamsWf s)
    (ha : a.toNat < 0x2000 ∨ ProgramRamAddress s a) (hb : SameCell b a) : busPeek (busWrite s a x) b = x := by
  obtain ⟨hram, hprg⟩ := hw
  rcases ha with ha | ha
  · rw [busPeek_busWrite_ram hram ha, if_pos]
    rcases hb with rfl | ⟨hb, -, hmod⟩
    · exact ⟨ha, rfl⟩
    · exact ⟨hb, hmod⟩
  · rcases hb with rfl | ⟨-, hlt, -⟩
    · exact busPeek_busWrite_prgRam hprg ha
    · have := ha.1
      omega

theorem StoresAt.readBack {i : Instr} {o : Operand} {s t : State} (h : StoresAt i o s t) (hw : RamsWf s)
    (ha : (locate o s).ea.toNat < 0x2000 ∨ ProgramRamAddress s (locate o s).ea) {a : Word}
    (hcell : SameCell a (locate o s).ea) :
    busPeek t a = storedByte (opcodeOf i).toNat s (busPeek s (locate o s).ea) := by
  obtain ⟨u, -, hu, hwrite⟩ := h.write
  have hplain : PlainAddress (locate o s).ea := ha.imp_right fun h => by have := h.1; omega
  rw [busPeek_regsOnly hwrite, hu hplain, busWrite_readBack _ hw ha hcell]

theorem StoresAt.other {i : Instr} {o : Operand} {s t : State} (h : StoresAt i o s t) (hw : RamsWf s)
    (ha : (locate o s).ea.toNat < 0x8000) {a : Word} (hplain : PlainAddress a)
    (hcell : ¬ SameCell a (locate o s).ea) : busPeek t a = busPeek s a := by
  obtain ⟨u, hkept, hu, hwrite⟩ := h.write
  rw [busPeek_regsOnly hwrite]
  by_cases hp : PlainAddress (locate o s).ea
  · rw [hu hp, busWrite_other _ hw ha hplain hcell]
  · unfold PlainAddress at hp
    rw [busWrite_device_plain _ (by omega) (by omega) a hplain, hkept.plain a hplain]

theorem StoresAt.ram {i : Instr} {o : Operand} {s t : State} (h : StoresAt i o s t)
    (ha : 0x2000 ≤ (locate o s).ea.toNat) : t.ram = s.ram := by
  obtain ⟨u, hkept, -, hwrite⟩ := h.write
  unfold RegsOnly at hwrite
  rw [hwrite]
  exact (busWrite_ram_kept ha).trans hkept.ram

theorem SameButCounter.prgRam {c d : Option Cartridge} (h : SameButCounter c d) :
    d.map (fun c => c.prgRam) = c.map fun c => c.prgRam := by
  obtain ⟨f, rfl, -⟩ := h
  cases c <;> rfl

theorem StoresAt.prgRam {i : Instr} {o : Operand} {s t : State} (h : StoresAt i o s t)
    (ha : (locate o s).ea.toNat < 0x6000 ∨ 0x8000 ≤ (locate o s).ea.toNat) :
    t.cart.map (fun c => c.prgRam) = s.cart.map fun c => c.prgRam := by
  obtain ⟨u, hkept, -, hwrite⟩ := h.write
  unfold RegsOnly at hwrite
  rw [hwrite]
  exact (busWrite_prgRam_kept _ ha).trans hkept.cart.prgRam

/-! What a push form leaves. -/

theorem busPeek_finish {n : Nat} {s t : State} (e : finish n s = .next t) (a : Word) : busPeek t a = busPeek s a := by
  injection e with e
  rw [← e]
  rfl

/-- A write to a stack cell changes no other cell of the bus. -/
theorem busWrite_stack_other {s : State} {a : Word} {sp : Byte} (x : Byte) (hw : Memory.wf s.ram = true)
    (h : ¬ SameCell a (stackAt sp)) : busPeek (busWrite s (stackAt sp) x) a = busPeek s a := by
  have hsp : (stackAt sp).toNat < 0x2000 := by
    have := sp.isLt
    rw [stackAt_toNat]
    omega
  rw [busPeek_busWrite_ram hw hsp, if_neg]
  exact fun hc => h (.inr ⟨hc.1, hsp, hc.2⟩)

theorem push_other {s : State} {a : Word} (x : Byte) (hw : Memory.wf s.ram = true)
    (h : ¬ SameCell a (stackAt s.sp)) : busPeek (push x s) a = busPeek s a := by
  rw [push_eq]
  exact busWrite_stack_other x hw h

theorem pushPair_other {s : State} {a : Word} (ret : Nat) (hw : Memory.wf s.ram = true)
    (h0 : ¬ SameCell a (stackAt s.sp)) (h1 : ¬ SameCell a (stackAt (s.sp - 1#8))) :
    busPeek (pushPair ret s) a = busPeek s a :=
  (busWrite_stack_other _ (busWrite_ram_wf _ _ hw) h1).trans (busWrite_stack_other _ hw h0)

theorem callTo_other {s : State} {a : Word} (w : Word) (hw : Memory.wf s.ram = true)
    (h0 : ¬ SameCell a (stackAt s.sp)) (h1 : ¬ SameCell a (stackAt (s.sp - 1#8))) :
    busPeek (callTo w s) a = busPeek s a := by
  rw [callTo, pushWord_law]
  exact pushPair_other _ hw h0 h1

/-- The entry sequence of BRK: the return address, then the status byte (R206, R306). -/
theorem interruptEntry_other {s : State} {a : Word} (b : Bool) (ret : Word) (hw : Memory.wf s.ram = true)
    (h0 : ¬ SameCell a (stackAt s.sp)) (h1 : ¬ SameCell a (stackAt (s.sp - 1#8)))
    (h2 : ¬ SameCell a (stackAt (s.sp - 2#8))) : busPeek (interruptEntry irqVector b ret s) a = busPeek s a := by
  have hpair : Memory.wf (pushPair ret.toNat s).ram = true := busWrite_ram_wf _ _ (busWrite_ram_wf _ _ hw)
  rw [interruptEntry_law _ _ _ _ (by decide) (by decide)]
  exact (busWrite_stack_other _ hpair h2).trans (pushPair_other _ hw h0 h1)

/-- The instructions of the opcodes that push. -/
theorem pushes_cases {i : Instr} (h : (opcodeOf i).toNat ∈ pushes) :
    i = .pha ∨ i = .php ∨ (∃ w, i = .jsr w) ∨ i = .brk := by
  cases i with
  | pha | php | jsr _ | brk => simp
  | _ => exact absurd h (of_decide_eq_false rfl)

/-- A push form changes only the stack cells it pushes to: one, two for JSR, three for BRK. -/
theorem exec_push_other {i : Instr} {s t : State} {a : Word} (hw : Memory.wf s.ram = true) (e : exec i s = .next t)
    (hi : (opcodeOf i).toNat ∈ pushes) (h0 : ¬ SameCell a (stackAt s.sp))
    (h1 : i = .brk ∨ (∃ w, i = .jsr w) → ¬ SameCell a (stackAt (s.sp - 1#8)))
    (h2 : i = .brk → ¬ SameCell a (stackAt (s.sp - 2#8))) : busPeek t a = busPeek s a := by
  obtain rfl | rfl | ⟨w, rfl⟩ | rfl := pushes_cases hi
  · exact (busPeek_finish e a).trans (push_other _ hw h0)
  · exact (busPeek_finish e a).trans (push_other _ hw h0)
  · exact (busPeek_finish e a).trans (callTo_other w hw h0 (h1 (.inr ⟨w, rfl⟩)))
  · exact (busPeek_finish e a).trans (interruptEntry_other _ _ hw h0 (h1 (.inl rfl)) (h2 rfl))

/-- Settles O42: a storing form is one write at its effective address, a push form writes to the stack alone. -/
theorem storingFrame : Obligations.StoringFrame := by
  intro i s t hram hprg e
  refine ⟨fun o ho => ?_, fun hi a _ h0 h1 h2 => exec_push_other hram e hi h0 h1 h2⟩
  have h := exec_storesAt e ho
  exact ⟨fun ha a => h.readBack ⟨hram, hprg⟩ ha, fun ha a => h.other ⟨hram, hprg⟩ ha, h.ram, h.prgRam⟩

end Sys2Proof.Machine
end

section
/-! PROOFS. The encoding (spec/30_encoding.md): the decoder and the encoder are inverse to each other, the opcode
byte gives the length, and the effective address of each addressing mode. -/

namespace Sys2Proof.Machine

/-! Decoder and encoder. -/

/-- A cell of the opcode map at the byte `op` assembles an instruction from its bytes: the common part of the encoder
and the decoder (R90, R105, R106). -/
inductive Assembles (op : Byte) : Row → Instr → List Byte → Prop
  | one (i : Instr) : Assembles op (.one i) i [op]
  | two (mk : Byte → Instr) (b : Byte) : Assembles op (.two mk) (mk b) [op, b]
  | three (mk : Word → Instr) (w : Word) : Assembles op (.three mk) (mk w) [op, loByte w, hiByte w]

theorem Assembles.length_eq {op : Byte} {r : Row} {i : Instr} {bytes : List Byte} (h : Assembles op r i bytes) :
    bytes.length = r.length := by
  cases h <;> rfl

/-- The decoder reads the bytes a cell assembles, and no more (R107). -/
theorem Assembles.decode {op : Byte} {i : Instr} {front : List Byte} (h : Assembles op (rowOf op) i front)
    (rest : List Byte) : decode (front ++ rest) = .ok (i, rest) := by
  generalize hr : rowOf op = r at h
  cases h with
  | one => simp [Sys2Proof.decode, hr]
  | two => simp [Sys2Proof.decode, hr]
  | three => simp [Sys2Proof.decode, hr, wordOf_bytes]

/-- What the decoder answers is assembled by the cell of the first byte, from the bytes before `rest` (R107). -/
theorem assembles_of_decode {bytes : List Byte} {i : Instr} {rest : List Byte} (h : decode bytes = .ok (i, rest)) :
    ∃ op front, Assembles op (rowOf op) i front ∧ bytes = front ++ rest := by
  cases bytes with
  | nil => cases h
  | cons op tail =>
    refine ⟨op, ?_⟩
    cases hr : rowOf op with
    | one j =>
      obtain ⟨rfl, rfl⟩ : j = i ∧ tail = rest := by simpa [decode, hr] using h
      exact ⟨_, .one j, rfl⟩
    | two mk =>
      match tail with
      | [] => simp [decode, hr] at h
      | b :: tail =>
        obtain ⟨rfl, rfl⟩ : mk b = i ∧ tail = rest := by simpa [decode, hr] using h
        exact ⟨_, .two mk b, rfl⟩
    | three mk =>
      match tail with
      | [] | [_] => simp [decode, hr] at h
      | b1 :: b2 :: tail =>
        obtain ⟨rfl, rfl⟩ : mk (wordOf b1 b2) = i ∧ tail = rest := by simpa [decode, hr] using h
        exact ⟨_, .three mk _, by simp⟩

/-- The encoding of each of the 256 instructions is what the cell of its opcode byte assembles: with the
opcode byte as a literal, the cell computes. -/
theorem encode_assembles (i : Instr) : Assembles (opcodeOf i) (rowOf (opcodeOf i)) i (encode i) := by
  cases i <;> simp only [opcodeOf, encode, List.headD_cons] <;> constructor

/-- Each of the 256 cells assembles instructions from the bytes of their encoding. -/
theorem Assembles.encode_eq {op : Byte} {i : Instr} {bytes : List Byte} (h : Assembles op (rowOf op) i bytes) :
    encode i = bytes := by
  obtain ⟨n, hn, rfl⟩ : ∃ n < 256, op = BitVec.ofNat 8 n := ⟨op.toNat, op.isLt, by simp⟩
  interval_cases n <;> cases h <;> rfl

/-- Settles O1: an instruction's encoding is assembled by the cell of its opcode byte. -/
theorem decodeInvertsEncode : Obligations.DecodeInvertsEncode :=
  fun i rest => (encode_assembles i).decode rest

/-- Settles O2: the cell that assembled the instruction read the bytes of its encoding. -/
theorem encodeInvertsDecode : Obligations.EncodeInvertsDecode := by
  intro bytes i rest h
  obtain ⟨op, front, hcell, rfl⟩ := assembles_of_decode h
  rw [hcell.encode_eq]

theorem length_encode (i : Instr) : (encode i).length = (rowOf (opcodeOf i)).length :=
  (encode_assembles i).length_eq

theorem row_length_bounds (r : Row) : 1 ≤ r.length ∧ r.length ≤ 3 := by
  cases r <;> simp [Row.length]

/-- Two bytes after the opcode byte are enough for every cell (R106, R110). -/
theorem decode_three_bytes (op b1 b2 : Byte) (rest : List Byte) :
    decode (op :: b1 :: b2 :: rest) =
      .ok ((rowOf op).build b1 b2, (op :: b1 :: b2 :: rest).drop (rowOf op).length) := by
  cases hr : rowOf op <;> simp [decode, hr, Row.build, Row.length]

/-- Settles O3: the instruction is the one the opcode byte's cell builds, and the cell has the length. -/
theorem everyOpcodeByteDecodes : Obligations.EveryOpcodeByteDecodes := by
  refine ⟨fun op b1 b2 rest => ?_, fun i j h => by rw [length_encode, length_encode, h]⟩
  obtain ⟨hop, hlen⟩ := rowOf_build op b1 b2
  obtain ⟨hmin, hmax⟩ := row_length_bounds (rowOf op)
  refine ⟨(rowOf op).build b1 b2, hop, ?_⟩
  rw [hlen]
  exact ⟨hmin, hmax, decode_three_bytes op b1 b2 rest⟩

theorem encodes_encode (i : Instr) : Encodes (encode i) i := by
  have h := decodeInvertsEncode i []
  rwa [List.append_nil] at h

/-- Settles O4: each list of bytes is the encoding of its instruction. -/
theorem spelledOutBytesDecode : Obligations.SpelledOutBytesDecode :=
  ⟨encodes_encode .brk, encodes_encode (.jmpInd 0x02FF#16), encodes_encode (.ldaIzy 0x40#8),
    encodes_encode (.staIzy 0x40#8), encodes_encode .nop, encodes_encode (.sbcEB 0x01#8),
    encodes_encode (.dcpIzx 0x10#8), encodes_encode .kil02, encodes_encode (.shx 0x0200#16),
    encodes_encode (.bne 0xF9#8), encodes_encode (.jsr 0x9010#16)⟩

/-! Effective addresses. -/

theorem zeroPage_add_toNat (b x : Byte) : (zeroPage (b + x)).toNat = (b.toNat + x.toNat) % 256 := by
  rw [zeroPage_toNat, BitVec.toNat_add]

theorem zeroPage_eq_ofNat (b : Byte) : zeroPage b = BitVec.ofNat 16 b.toNat := by
  apply word_eq
  have := b.isLt
  rw [zeroPage_toNat, BitVec.toNat_ofNat]
  omega

/-- The word a pair of zero-page cells holds, the second cell by the wrap inside the page (R101, R102). -/
def zeroPagePointer (s : State) (p : Byte) : Word :=
  wordOf (busPeek s (zeroPage p)) (busPeek s (zeroPage (p + 1#8)))

theorem zeroPagePointer_toNat (s : State) (p : Byte) :
    (zeroPagePointer s p).toNat =
      (busPeek s (BitVec.ofNat 16 p.toNat)).toNat + 256 * (busPeek s (BitVec.ofNat 16 ((p.toNat + 1) % 256))).toNat := by
  rw [zeroPagePointer, wordOf_toNat, zeroPage_eq_ofNat, zeroPage_eq_ofNat, BitVec.toNat_add]
  rfl

theorem locate_izx (b : Byte) (s : State) :
    locate (.izx b) s = { ea := zeroPagePointer s (b + s.x), crossed := false, state := s } := by
  simp only [locate, busReadWord_zeroPage, zeroPagePointer]

theorem locate_izy (b : Byte) (s : State) :
    locate (.izy b) s =
      { ea := zeroPagePointer s b + s.y.setWidth 16,
        crossed := pageCross (zeroPagePointer s b) (zeroPagePointer s b + s.y.setWidth 16), state := s } := by
  simp only [locate, busReadWord_zeroPage, zeroPagePointer]

/-- Settles O11, mode by mode in the order of the operands. -/
theorem effectiveAddresses : Obligations.EffectiveAddresses := by
  intro s b w pointer
  have hpointer : ∀ p : Byte, (zeroPagePointer s p).toNat = pointer p.toNat := zeroPagePointer_toNat s
  refine ⟨?imm, rfl, zeroPage_toNat b, rfl, zeroPage_add_toNat b s.x, rfl, zeroPage_add_toNat b s.y, rfl, rfl, rfl,
    add_index_toNat w s.x, crossed_eq w s.x, add_index_toNat w s.y, crossed_eq w s.y, ?izx, rfl, ?izy, ?izyCrossed,
    fun o => locate_state o s, rfl, rfl, rfl, ?read⟩
  case imm =>
    show (s.pc - 1#16).toNat = _
    rw [BitVec.toNat_sub, Nat.add_comm]
    rfl
  case izx => rw [locate_izx, hpointer, BitVec.toNat_add]
  case izy => rw [locate_izy, add_index_toNat, hpointer]
  case izyCrossed => rw [locate_izy, crossed_eq, hpointer]
  case read =>
    intro o h
    rw [readOperand_mem o s h]
    exact ⟨rfl, rfl, rfl⟩

end Sys2Proof.Machine
end

section
/-! PROOFS. Loads, stores and register transfers (spec/40_load_store_transfer.md): an instruction that runs one
shared operation at its own opcode has the form of that operation, and each of these does. -/

namespace Sys2Proof.Machine

/-! The form of an instruction. Its bytes, the operation it runs and its default row are cells of three tables (the
encoder, `exec`, R109), which compute by default; what a proof gives is what the operation does to the state. -/

section Forms

variable {op : Byte} {operands : List Byte} {i : Instr} {o : Operand} {n : Nat}

theorem opcodeOf_of_encode (h : encode i = op :: operands) : opcodeOf i = op := by
  rw [opcodeOf, h, List.headD_cons]

theorem encodes_of_encode {bytes : List Byte} (h : encode i = bytes) : Encodes bytes i :=
  h ▸ encodes_encode i

theorem readForm_of_exec {star : Bool} {f g : Byte → State → State} (hf : ∀ m s, f m s = g m s)
    (hb : encode i = op :: operands := by rfl) (he : ∀ s, exec i s = readWith op o f s := by intro _; rfl)
    (hr : defaultRow op = { base := n, penalty := star } := by rfl) : ReadForm (op :: operands) i o n star g :=
  readForm_of op (encodes_of_encode hb) he hr (opcodeOf_of_encode hb) hf

theorem storeForm_of_exec {v : State → Byte} (hb : encode i = op :: operands := by rfl)
    (he : ∀ s, exec i s = storeTo op o (v s) s := by intro _; rfl)
    (hr : defaultRow op = { base := n, penalty := false } := by rfl) : StoreForm (op :: operands) i o n v :=
  storeForm_of op (encodes_of_encode hb) he hr (opcodeOf_of_encode hb)

theorem plainForm_of_exec {f g : State → State} (hf : ∀ s, f s = g s) (hb : encode i = op :: operands := by rfl)
    (he : ∀ s, exec i s = finish (cyclesOf s op false) (f s) := by intro _; rfl)
    (hr : defaultRow op = { base := n, penalty := false } := by rfl) : PlainForm (op :: operands) i n g :=
  plainForm_of op (encodes_of_encode hb) he hr (opcodeOf_of_encode hb) hf

end Forms

/-! Loading a register sets Z and N from the byte (R131 to R133, R246). -/

theorem loadA_eq (v : Byte) (s : State) : loadA v s = zeroNegative v { s with a := v } := setZN_eq v _

theorem loadX_eq (v : Byte) (s : State) : loadX v s = zeroNegative v { s with x := v } := setZN_eq v _

theorem loadY_eq (v : Byte) (s : State) : loadY v s = zeroNegative v { s with y := v } := setZN_eq v _

theorem loadAX_eq (v : Byte) (s : State) : loadAX v s = zeroNegative v { s with a := v, x := v } := setZN_eq v _

/-- Settles O12: each of LDA, LDX, LDY and LAX, in this order, reads its operand and loads its registers. -/
theorem loadForms : Obligations.LoadForms :=
  fun _ _ =>
    ⟨readForm_of_exec loadA_eq, readForm_of_exec loadA_eq, readForm_of_exec loadA_eq, readForm_of_exec loadA_eq,
      readForm_of_exec loadA_eq, readForm_of_exec loadA_eq, readForm_of_exec loadA_eq, readForm_of_exec loadA_eq,
      readForm_of_exec loadX_eq, readForm_of_exec loadX_eq, readForm_of_exec loadX_eq, readForm_of_exec loadX_eq,
      readForm_of_exec loadX_eq,
      readForm_of_exec loadY_eq, readForm_of_exec loadY_eq, readForm_of_exec loadY_eq, readForm_of_exec loadY_eq,
      readForm_of_exec loadY_eq,
      readForm_of_exec loadAX_eq, readForm_of_exec loadAX_eq, readForm_of_exec loadAX_eq, readForm_of_exec loadAX_eq,
      readForm_of_exec loadAX_eq, readForm_of_exec loadAX_eq⟩

/-- Settles O13: each of STA, STX, STY and SAX, in this order, is `storeTo` with its byte. -/
theorem storeForms : Obligations.StoreForms :=
  fun _ _ =>
    ⟨storeForm_of_exec, storeForm_of_exec, storeForm_of_exec, storeForm_of_exec, storeForm_of_exec,
      storeForm_of_exec, storeForm_of_exec,
      storeForm_of_exec, storeForm_of_exec, storeForm_of_exec,
      storeForm_of_exec, storeForm_of_exec, storeForm_of_exec,
      storeForm_of_exec, storeForm_of_exec, storeForm_of_exec, storeForm_of_exec⟩

/-- Settles O14: the source register is loaded into the destination; TXS sets S with no flag. -/
theorem transferForms : Obligations.TransferForms :=
  ⟨plainForm_of_exec fun s => loadX_eq s.a s, plainForm_of_exec fun s => loadY_eq s.a s,
    plainForm_of_exec fun s => loadA_eq s.x s, plainForm_of_exec fun s => loadA_eq s.y s,
    plainForm_of_exec fun s => loadX_eq s.sp s, plainForm_of_exec fun _ => rfl⟩

end Sys2Proof.Machine
end

section
/-! PROOFS. The stack instructions (spec/41_stack.md): what a push and a pull do at page 1 is said by `push_eq` and
`pull_eq`; the status byte pushed and the one pulled are those of `packP_eq` and `unpackP_eq`. -/

namespace Sys2Proof.Machine

/-- PHP pushes the status byte with bits 5 and 4 set (R152). -/
theorem push_packP_eq (s : State) :
    push (packP true s) s = { busWrite s (stackAt s.sp) (statusByte true s) with sp := s.sp - 1#8 } := by
  rw [packP_eq, push_eq]

/-- PLA loads A with the byte pulled (R153). -/
theorem loadA_pull_eq (s : State) :
    loadA (pull s).1 (pull s).2 =
      zeroNegative (busPeek s (stackAt (s.sp + 1#8)))
        { s with a := busPeek s (stackAt (s.sp + 1#8)), sp := s.sp + 1#8 } := by
  rw [loadA_eq, pull_eq]

/-- PLP sets the flags from the byte pulled (R154). -/
theorem unpackP_pull_eq (s : State) :
    unpackP (pull s).1 (pull s).2 =
      loadStatus (busPeek s (stackAt (s.sp + 1#8))) { s with sp := s.sp + 1#8 } := by
  rw [unpackP_eq, pull_eq]

/-- Settles O15: PHA, PHP, PLA and PLP, in this order, are a push or a pull of A or of the status byte. -/
theorem stackForms : Obligations.StackForms :=
  ⟨plainForm_of_exec fun s => push_eq s.a s, plainForm_of_exec push_packP_eq, plainForm_of_exec loadA_pull_eq,
    plainForm_of_exec unpackP_pull_eq⟩

end Sys2Proof.Machine
end

section
/-! PROOFS. Logic, arithmetic, compare and bit test (spec/42_logic_arith_compare.md): each reads its operand and runs one
operation of Machine/Alu.lean, whose law on numbers is one lemma; that of ADC and SBC is `adcInto_eq` and
`sbcInto_eq`, that of BIT is `bitTest_eq`. -/

namespace Sys2Proof.Machine

/-! The bitwise operations set Z and N from the new A (R161 to R163). -/

theorem oraA_eq (m : Byte) (s : State) : oraA m s = zeroNegative (s.a ||| m) { s with a := s.a ||| m } := setZN_eq _ _

theorem andA_eq (m : Byte) (s : State) : andA m s = zeroNegative (s.a &&& m) { s with a := s.a &&& m } := setZN_eq _ _

theorem eorA_eq (m : Byte) (s : State) : eorA m s = zeroNegative (s.a ^^^ m) { s with a := s.a ^^^ m } := setZN_eq _ _

/-- Settles O16: each of ORA, AND, EOR and BIT, in this order, reads its operand and runs its operation. -/
theorem logicAndBitForms : Obligations.LogicAndBitForms :=
  fun _ _ =>
    ⟨readForm_of_exec oraA_eq, readForm_of_exec oraA_eq, readForm_of_exec oraA_eq, readForm_of_exec oraA_eq,
      readForm_of_exec oraA_eq, readForm_of_exec oraA_eq, readForm_of_exec oraA_eq, readForm_of_exec oraA_eq,
      readForm_of_exec andA_eq, readForm_of_exec andA_eq, readForm_of_exec andA_eq, readForm_of_exec andA_eq,
      readForm_of_exec andA_eq, readForm_of_exec andA_eq, readForm_of_exec andA_eq, readForm_of_exec andA_eq,
      readForm_of_exec eorA_eq, readForm_of_exec eorA_eq, readForm_of_exec eorA_eq, readForm_of_exec eorA_eq,
      readForm_of_exec eorA_eq, readForm_of_exec eorA_eq, readForm_of_exec eorA_eq, readForm_of_exec eorA_eq,
      readForm_of_exec bitTest_eq, readForm_of_exec bitTest_eq⟩

/-- Settles O17: ADC is the adder, whose sign-divergence test is signed overflow (`signDiverges_iff`); SBC, 0xEB
too, is the adder on the ones' complement, 255 less the operand. Neither law speaks of D. -/
theorem addAndSubtractForms : Obligations.AddAndSubtractForms :=
  fun _ _ =>
    ⟨readForm_of_exec adcInto_eq, readForm_of_exec adcInto_eq, readForm_of_exec adcInto_eq, readForm_of_exec adcInto_eq,
      readForm_of_exec adcInto_eq, readForm_of_exec adcInto_eq, readForm_of_exec adcInto_eq, readForm_of_exec adcInto_eq,
      readForm_of_exec sbcInto_eq, readForm_of_exec sbcInto_eq, readForm_of_exec sbcInto_eq, readForm_of_exec sbcInto_eq,
      readForm_of_exec sbcInto_eq, readForm_of_exec sbcInto_eq, readForm_of_exec sbcInto_eq, readForm_of_exec sbcInto_eq,
      readForm_of_exec sbcInto_eq⟩

/-! A comparison with each register (R166 to R168). -/

theorem cmpA_eq (m : Byte) (s : State) : cmpA m s = compareLaw s.a m s := compareWith_eq s.a m s

theorem cmpX_eq (m : Byte) (s : State) : cmpX m s = compareLaw s.x m s := compareWith_eq s.x m s

theorem cmpY_eq (m : Byte) (s : State) : cmpY m s = compareLaw s.y m s := compareWith_eq s.y m s

/-- Settles O18: each of CMP, CPX and CPY, in this order, reads its operand and compares its register with it. -/
theorem compareForms : Obligations.CompareForms :=
  fun _ _ =>
    ⟨readForm_of_exec cmpA_eq, readForm_of_exec cmpA_eq, readForm_of_exec cmpA_eq, readForm_of_exec cmpA_eq,
      readForm_of_exec cmpA_eq, readForm_of_exec cmpA_eq, readForm_of_exec cmpA_eq, readForm_of_exec cmpA_eq,
      readForm_of_exec cmpX_eq, readForm_of_exec cmpX_eq, readForm_of_exec cmpX_eq,
      readForm_of_exec cmpY_eq, readForm_of_exec cmpY_eq, readForm_of_exec cmpY_eq⟩

end Sys2Proof.Machine
end

section
/-! PROOFS. Shifts, rotates, increments and decrements (spec/43_shift_incdec.md): one on memory is `modifyAt` with its
operation on a byte, one on A is `modifyA`; the operation on numbers is `aslByte_eq` and its companions. -/

namespace Sys2Proof.Machine

section Forms

variable {op : Byte} {operands : List Byte} {i : Instr} {f : Byte → Bool → Shifted} {r : Byte → Bool → Byte}
  {c : Byte → Bool → Bool}

theorem modifyForm_of_exec {o : Operand} {n : Nat} {g h : Byte → State → State}
    (hf : ∀ v b, f v b = { result := r v b, carry := c v b }) (hg : ∀ m s, g m s = h m s)
    (hb : encode i = op :: operands := by rfl) (he : ∀ s, exec i s = modifyAt op o f g s := by intro _; rfl)
    (hr : defaultRow op = { base := n, penalty := false } := by rfl) : ModifyForm (op :: operands) i o n r c h :=
  modifyForm_of op (encodes_of_encode hb) he hr (opcodeOf_of_encode hb) hf hg

theorem plainA_of_exec (hf : ∀ v b, f v b = { result := r v b, carry := c v b })
    (hb : encode i = op :: operands := by rfl) (he : ∀ s, exec i s = modifyA op f s := by intro _; rfl)
    (hr : defaultRow op = { base := 2, penalty := false } := by rfl) :
    PlainForm (op :: operands) i 2 (fun s =>
      zeroNegative (r s.a s.flagC) { s with a := r s.a s.flagC, flagC := c s.a s.flagC }) :=
  plainA_of op (encodes_of_encode hb) he hr (opcodeOf_of_encode hb) hf

end Forms

/-- Settles O19: each of ASL, LSR, ROL and ROR, in this order, runs its operation on A, then on the byte of each of the
four memory modes. -/
theorem shiftForms : Obligations.ShiftForms :=
  fun _ _ =>
    ⟨plainA_of_exec aslByte_eq, modifyForm_of_exec aslByte_eq setZN_eq, modifyForm_of_exec aslByte_eq setZN_eq,
      modifyForm_of_exec aslByte_eq setZN_eq, modifyForm_of_exec aslByte_eq setZN_eq,
      plainA_of_exec lsrByte_eq, modifyForm_of_exec lsrByte_eq setZN_eq, modifyForm_of_exec lsrByte_eq setZN_eq,
      modifyForm_of_exec lsrByte_eq setZN_eq, modifyForm_of_exec lsrByte_eq setZN_eq,
      plainA_of_exec rolByte_eq, modifyForm_of_exec rolByte_eq setZN_eq, modifyForm_of_exec rolByte_eq setZN_eq,
      modifyForm_of_exec rolByte_eq setZN_eq, modifyForm_of_exec rolByte_eq setZN_eq,
      plainA_of_exec rorByte_eq, modifyForm_of_exec rorByte_eq setZN_eq, modifyForm_of_exec rorByte_eq setZN_eq,
      modifyForm_of_exec rorByte_eq setZN_eq, modifyForm_of_exec rorByte_eq setZN_eq⟩

/-! An increment or decrement of an index register loads it with the new value (R187 to R190). -/

theorem loadX_inc_eq (s : State) :
    loadX (s.x + 1#8) s = zeroNegative (incResult s.x s.flagC) { s with x := incResult s.x s.flagC } := by
  rw [loadX_eq, inc_eq s.x s.flagC]

theorem loadY_inc_eq (s : State) :
    loadY (s.y + 1#8) s = zeroNegative (incResult s.y s.flagC) { s with y := incResult s.y s.flagC } := by
  rw [loadY_eq, inc_eq s.y s.flagC]

theorem loadX_dec_eq (s : State) :
    loadX (s.x - 1#8) s = zeroNegative (decResult s.x s.flagC) { s with x := decResult s.x s.flagC } := by
  rw [loadX_eq, dec_eq s.x s.flagC]

theorem loadY_dec_eq (s : State) :
    loadY (s.y - 1#8) s = zeroNegative (decResult s.y s.flagC) { s with y := decResult s.y s.flagC } := by
  rw [loadY_eq, dec_eq s.y s.flagC]

/-- Settles O20: INC and DEC run their operation on the byte of each of the four memory modes, its carry the old one;
INX, INY, DEX and DEY load their register. -/
theorem incrementDecrementForms : Obligations.IncrementDecrementForms :=
  fun _ _ =>
    ⟨modifyForm_of_exec incByte_eq setZN_eq, modifyForm_of_exec incByte_eq setZN_eq,
      modifyForm_of_exec incByte_eq setZN_eq, modifyForm_of_exec incByte_eq setZN_eq,
      modifyForm_of_exec decByte_eq setZN_eq, modifyForm_of_exec decByte_eq setZN_eq,
      modifyForm_of_exec decByte_eq setZN_eq, modifyForm_of_exec decByte_eq setZN_eq,
      plainForm_of_exec loadX_inc_eq, plainForm_of_exec loadY_inc_eq,
      plainForm_of_exec loadX_dec_eq, plainForm_of_exec loadY_dec_eq⟩

end Sys2Proof.Machine
end

section
/-! PROOFS. Control flow (spec/44_control_flow.md): a branch is `branch` with its condition; jumps, calls, returns and
BRK are a change of PC and of the stack. A return reads back the cells of page 1 that the call or the entry wrote. -/

namespace Sys2Proof.Machine

/-! Branches. -/

theorem branchForm_of_exec {op : Byte} {operands : List Byte} {i : Instr} {off : Byte} {cond : State → Bool}
    (hb : encode i = op :: operands := by rfl) (he : ∀ s, exec i s = branch op (cond s) off s := by intro _; rfl)
    (hr : defaultRow op = { base := 2, penalty := false } := by rfl) : BranchForm (op :: operands) i off cond :=
  branchForm_of op (encodes_of_encode hb) he hr (opcodeOf_of_encode hb)

/-- Settles O21: each branch, in the order of the opcodes, is `branch` with its flag or the complement of it. -/
theorem branchForms : Obligations.BranchForms :=
  fun _ =>
    ⟨branchForm_of_exec, branchForm_of_exec, branchForm_of_exec, branchForm_of_exec, branchForm_of_exec,
      branchForm_of_exec, branchForm_of_exec, branchForm_of_exec⟩

/-! Jumps. -/

/-- The address after `w` in its page: the low byte wraps, the high byte stays (R100). -/
theorem wordOf_next_inPage (w : Word) :
    wordOf (loByte w + 1#8) (hiByte w) = BitVec.ofNat 16 (w.toNat / 256 * 256 + (w.toNat + 1) % 256) := by
  have hw := w.isLt
  apply word_eq
  rw [wordOf_toNat, BitVec.toNat_add, loByte_toNat, hiByte_toNat, BitVec.toNat_ofNat, BitVec.toNat_ofNat]
  omega

/-- The state a jump through the pointer at `w` leaves: two reads, low byte first, then PC (R202). -/
def jumpThrough (w : Word) (s : State) : State :=
  let next : Word := BitVec.ofNat 16 (w.toNat / 256 * 256 + (w.toNat + 1) % 256)
  let u := afterRead s w
  { afterRead u next with pc := BitVec.ofNat 16 ((busPeek s w).toNat + 256 * (busPeek u next).toNat) }

theorem jumpIndirect_eq (w : Word) (s : State) : jumpIndirect w s = jumpThrough w s := by
  rw [jumpIndirect, wordOf_next_inPage, busReadWord, wordOf_eq]
  rfl

theorem jmpInd_form (w : Word) : PlainForm [0x6C#8, loByte w, hiByte w] (.jmpInd w) 5 (jumpThrough w) :=
  plainForm_of_exec (jumpIndirect_eq w)

/-- Settles O22: JMP sets PC, to the operand or to the word at it. -/
theorem jumpForms : Obligations.JumpForms :=
  fun w => ⟨plainForm_of_exec fun _ => rfl, jmpInd_form w⟩

/-! Calls and returns. -/

/-- JSR pushes the address before the next instruction (R203). -/
theorem callTo_eq (w : Word) (s : State) :
    callTo w s = { pushPair ((s.pc.toNat + 65535) % 65536) s with pc := w } := by
  have h : (s.pc - 1#16).toNat = (s.pc.toNat + 65535) % 65536 := by rw [BitVec.toNat_sub, Nat.add_comm]; rfl
  rw [callTo, pushWord_law, h]

/-- RTS pulls two bytes and adds one (R204). -/
theorem subroutineReturn_eq (s : State) :
    subroutineReturn s =
      { s with
        sp := s.sp + 2#8
        pc := pairAt s (stackAt (s.sp + 1#8)) (stackAt (s.sp + 2#8)) + 1#16 } := by
  rw [subroutineReturn, pullWord_eq, wordOf_eq, pairAt]

/-- Settles O23: JSR is `callTo`, RTS is `subroutineReturn`. -/
theorem callAndReturnForms : Obligations.CallAndReturnForms :=
  fun w => ⟨plainForm_of_exec (callTo_eq w), plainForm_of_exec subroutineReturn_eq⟩

/-! The break instruction. -/

/-- BRK is the entry sequence through 0xFFFE, with the address one past the next instruction's; its cost is its row's
(R206). -/
theorem exec_brk (s : State) :
    exec .brk s = finish (cyclesOf s 0x00#8 false) (entryLaw 0xFFFE#16 (s.pc + 1#16).toNat true s) := by
  show finish _ (interruptEntry irqVector true (s.pc + 1#16) s) = _
  rw [interruptEntry_law _ _ _ _ (by decide) (by decide)]
  rfl

/-- Settles O24: BRK is the entry sequence, RTI is `interruptReturn`. -/
theorem breakAndReturnForms : Obligations.BreakAndReturnForms :=
  ⟨plainForm_of_exec (fun s => by rw [BitVec.toNat_add]; rfl) (he := exec_brk),
    plainForm_of_exec interruptReturn_law⟩

/-! What a return reads back. -/

/-- A cell of the stack after a write to one. -/
theorem busPeek_stack_write {s : State} {p q : Byte} {x : Byte} (hw : Memory.wf s.ram = true) :
    busPeek (busWrite s (stackAt p) x) (stackAt q) = if q = p then x else busPeek s (stackAt q) := by
  have hp := p.isLt
  have hq := q.isLt
  rw [busPeek_busWrite_ram hw (by rw [stackAt_toNat]; omega), stackAt_toNat, stackAt_toNat]
  congr 1
  rw [eq_iff_iff, ← BitVec.toNat_inj]
  omega

theorem pairAt_regsOnly {s t : State} (h : RegsOnly s t) (lo hi : Word) : pairAt t lo hi = pairAt s lo hi := by
  rw [pairAt, pairAt, busPeek_regsOnly h, busPeek_regsOnly h]

/-- The pair pushed is the one two pulls read. -/
theorem pairAt_pushPair {s : State} (ret : Word) (hw : Memory.wf s.ram = true) :
    pairAt (pushPair ret.toNat s) (stackAt (s.sp - 1#8)) (stackAt s.sp) = ret := by
  have hne : s.sp ≠ s.sp - 1#8 := by bv_omega
  have hret := ret.isLt
  have hregs : RegsOnly (busWrite (busWrite s (stackAt s.sp) (BitVec.ofNat 8 (ret.toNat / 256))) (stackAt (s.sp - 1#8))
      (BitVec.ofNat 8 ret.toNat)) (pushPair ret.toNat s) := rfl
  rw [pairAt_regsOnly hregs, pairAt, busPeek_stack_write (busWrite_ram_wf _ _ hw), if_pos rfl,
    busPeek_stack_write (busWrite_ram_wf _ _ hw), if_neg hne, busPeek_stack_write hw, if_pos rfl]
  apply word_eq
  simp only [BitVec.toNat_ofNat]
  omega

/-- The machine goes on at `ret` with S, A, X, Y and the six flags of `s`. -/
def Resumes (ret : Word) (s u : State) : Prop :=
  u.pc = ret ∧ u.sp = s.sp ∧ u.a = s.a ∧ u.x = s.x ∧ u.y = s.y ∧
    u.flagN = s.flagN ∧ u.flagV = s.flagV ∧ u.flagD = s.flagD ∧ u.flagI = s.flagI ∧
    u.flagZ = s.flagZ ∧ u.flagC = s.flagC

/-- The status byte is made of the six flags. -/
theorem Resumes.statusByte_eq {ret : Word} {s u : State} (h : Resumes ret s u) (b : Bool) :
    statusByte b u = statusByte b s := by
  obtain ⟨-, -, -, -, -, hn, hv, hd, hi, hz, hc⟩ := h
  rw [statusByte, hn, hv, hd, hi, hz, hc, statusByte]

/-! JSR then RTS. -/

/-- RTS in a state that differs from the one after the call's pushes in PC and the cycles left. -/
theorem rts_resumes_of_call {s : State} (ret w : Word) (n : Nat) (hw : Memory.wf s.ram = true) :
    ∃ u, exec .rts { pushPair ret.toNat s with pc := w, cyclesRemaining := n } = .next u ∧
      Resumes (ret + 1#16) s u := by
  obtain ⟨-, -, hrts⟩ := callAndReturnForms w
  have hsp1 : s.sp - 2#8 + 1#8 = s.sp - 1#8 := by bv_omega
  have hsp2 : s.sp - 2#8 + 2#8 = s.sp := BitVec.sub_add_cancel _ _
  have hregs : RegsOnly (pushPair ret.toNat s) { pushPair ret.toNat s with pc := w, cyclesRemaining := n } := rfl
  refine ⟨_, hrts _, ?_, hsp2, ?_⟩
  · show pairAt _ (stackAt (s.sp - 2#8 + 1#8)) (stackAt (s.sp - 2#8 + 2#8)) + 1#16 = _
    rw [hsp1, hsp2, pairAt_regsOnly hregs, pairAt_pushPair ret hw]
  · simp [pushPair]

/-- Settles O30: RTS pulls the address of the last byte of the JSR, and adds one. -/
theorem callThenReturn : Obligations.CallThenReturn := by
  intro w s hw
  have hjsr : exec (.jsr w) s =
      .next { pushPair (s.pc - 1#16).toNat s with pc := w, cyclesRemaining := cyclesOf s 0x20#8 false } := by
    rw [← pushWord_law]
    rfl
  obtain ⟨u, hrts, hu⟩ := rts_resumes_of_call (s.pc - 1#16) w _ hw
  have hstatus := hu.statusByte_eq true
  obtain ⟨hpc, hsp, ha, hx, hy, -⟩ := hu
  exact ⟨_, u, hjsr, hrts, hpc.trans (BitVec.sub_add_cancel _ _), hsp, ha, hx, hy, hstatus⟩

/-! RTI after an entry. -/

theorem pushPair_ram_wf {s : State} (ret : Nat) (hw : Memory.wf s.ram = true) :
    Memory.wf (pushPair ret s).ram = true :=
  busWrite_ram_wf _ _ (busWrite_ram_wf _ _ hw)

/-- The pair pushed under a status byte is still the one two pulls read. -/
theorem pairAt_pushed_under {s : State} (ret : Word) (x : Byte) (hw : Memory.wf s.ram = true) :
    pairAt (busWrite (pushPair ret.toNat s) (stackAt (s.sp - 2#8)) x) (stackAt (s.sp - 1#8)) (stackAt s.sp) = ret := by
  have h1 : s.sp - 1#8 ≠ s.sp - 2#8 := by bv_omega
  have h2 : s.sp ≠ s.sp - 2#8 := by bv_omega
  have hpair := pushPair_ram_wf ret.toNat hw
  rw [pairAt, busPeek_stack_write hpair, if_neg h1, busPeek_stack_write hpair, if_neg h2]
  exact pairAt_pushPair ret hw

theorem loadStatus_statusByte (b : Bool) (s t : State) :
    loadStatus (statusByte b s) t =
      { t with flagN := s.flagN, flagV := s.flagV, flagD := s.flagD, flagI := s.flagI, flagZ := s.flagZ,
               flagC := s.flagC } := by
  rw [← packP_eq, ← unpackP_eq, unpackP_packP]

/-- RTI in the state after the entry sequence: the status byte it pulls holds the flags as they were before I was
set. -/
theorem rti_resumes_of_entry {s t : State} {vector ret : Word} {b : Bool} {n : Nat} (hw : Memory.wf s.ram = true)
    (ht : t = { entryLaw vector ret.toNat b s with cyclesRemaining := n }) :
    ∃ u, exec .rti t = .next u ∧ Resumes ret s u := by
  obtain ⟨-, -, hrti⟩ := breakAndReturnForms
  have hregs : RegsOnly (busWrite (pushPair ret.toNat s) (stackAt (s.sp - 2#8)) (statusByte b s)) t := by
    rw [ht]
    rfl
  have hsp : t.sp = s.sp - 3#8 := by rw [ht]; rfl
  have hsp1 : t.sp + 1#8 = s.sp - 2#8 := by bv_omega
  have hsp2 : t.sp + 2#8 = s.sp - 1#8 := by bv_omega
  have hsp3 : t.sp + 3#8 = s.sp := by bv_omega
  have hstatus : busPeek t (stackAt (s.sp - 2#8)) = statusByte b s := by
    rw [busPeek_regsOnly hregs, busPeek_stack_write (pushPair_ram_wf _ hw), if_pos rfl]
  have hpc : pairAt t (stackAt (s.sp - 1#8)) (stackAt s.sp) = ret := by
    rw [pairAt_regsOnly hregs, pairAt_pushed_under ret _ hw]
  refine ⟨_, hrti t, ?_⟩
  simp only [hsp1, hsp2, hsp3, hstatus, hpc, loadStatus_statusByte]
  exact ⟨rfl, rfl, by simp [ht, entryLaw, pushPair]⟩

/-- Settles O31: NMI, IRQ and BRK are the entry sequence with their vector and their return address. -/
theorem returnUndoesEntry : Obligations.ReturnUndoesEntry := by
  intro s hw
  constructor
  · rintro t (ht | ht)
    · exact rti_resumes_of_entry (s := { s with nmiPending := false }) hw (ht.trans (serviceNmi_law s))
    · exact rti_resumes_of_entry hw (ht.trans (serviceIrq_law s))
  · obtain ⟨u, hrti, hu⟩ := rti_resumes_of_entry (vector := 0xFFFE#16) (ret := s.pc + 1#16) (b := true) hw rfl
    exact ⟨_, u, exec_brk s, hrti, hu⟩

end Sys2Proof.Machine
end

section
/-! PROOFS. Flag instructions and NOPs (spec/45_flags_nop.md): a flag instruction is one field of the state and the cost;
a NOP leaves the state, whether it names an address or not, since locating an operand changes nothing. -/

namespace Sys2Proof.Machine

/-- Settles O25: CLC, SEC, CLI, SEI, CLV, CLD and SED, in this order, each set one field and finish. -/
theorem flagInstructionForms : Obligations.FlagInstructionForms :=
  ⟨plainForm_of_exec fun _ => rfl, plainForm_of_exec fun _ => rfl, plainForm_of_exec fun _ => rfl,
    plainForm_of_exec fun _ => rfl, plainForm_of_exec fun _ => rfl, plainForm_of_exec fun _ => rfl,
    plainForm_of_exec fun _ => rfl⟩

/-! The forms of a NOP. -/

section Forms

variable {op : Byte} {operands : List Byte} {i : Instr} {n : Nat}

/-- A NOP without a memory operand finishes at once (R237, R254, R255). -/
theorem nopForm_of_exec (hb : encode i = op :: operands := by rfl)
    (he : ∀ s, exec i s = finish (cyclesOf s op false) s := by intro _; rfl)
    (hr : defaultRow op = { base := n, penalty := false } := by rfl) : PlainForm (op :: operands) i n (fun s => s) :=
  plainForm_of_exec (f := fun s => s) (fun _ => rfl) hb he hr

/-- A NOP that locates an operand in a mode that crosses no page (R256). -/
theorem locateForm_of_exec {o : Operand} (hb : encode i = op :: operands := by rfl)
    (he : ∀ s, exec i s = locateOnly op o s := by intro _; rfl)
    (hr : defaultRow op = { base := n, penalty := false } := by rfl)
    (hc : ∀ s, (locate o s).crossed = false := by intro _; rfl) : PlainForm (op :: operands) i n (fun s => s) :=
  locateForm_of op (encodes_of_encode hb) he hr (opcodeOf_of_encode hb) hc

/-- A NOP that locates an operand indexed by X takes one cycle more when the indexing crosses a page (R256). -/
theorem locateForm_abx_of_exec {w : Word} (hb : encode i = op :: operands := by rfl)
    (he : ∀ s, exec i s = locateOnly op (.abx w) s := by intro _; rfl)
    (hr : defaultRow op = { base := 4, penalty := true } := by rfl) :
    Encodes (op :: operands) i ∧ ∀ s, exec i s = .next
      { s with cyclesRemaining := costOr s i 4 true (decide (255 < w.toNat % 256 + s.x.toNat)) } :=
  ⟨encodes_of_encode hb, fun s => (he s).trans (locateOnly_abx op hr (opcodeOf_of_encode hb) w s)⟩

end Forms

/-- Settles O26: the implied and immediate NOPs finish at once; those of the zero page, the indexed zero page and the
absolute mode locate an operand without a crossing; those of absolute,X locate one that may cross. -/
theorem nopForms : Obligations.NopForms :=
  fun _ _ =>
    ⟨nopForm_of_exec, nopForm_of_exec, nopForm_of_exec, nopForm_of_exec, nopForm_of_exec, nopForm_of_exec,
      nopForm_of_exec,
      nopForm_of_exec, nopForm_of_exec, nopForm_of_exec, nopForm_of_exec, nopForm_of_exec,
      locateForm_of_exec, locateForm_of_exec, locateForm_of_exec,
      locateForm_of_exec, locateForm_of_exec, locateForm_of_exec, locateForm_of_exec, locateForm_of_exec,
      locateForm_of_exec,
      locateForm_of_exec,
      locateForm_abx_of_exec, locateForm_abx_of_exec, locateForm_abx_of_exec, locateForm_abx_of_exec,
      locateForm_abx_of_exec, locateForm_abx_of_exec⟩

end Sys2Proof.Machine
end

section
/-! PROOFS. Unofficial opcodes (spec/46_unofficial.md): a combined form is `modifyAt` with the operation of a shift or of
an increment and then one of the ALU on the byte written; an immediate form is `readWith` with an operation of its own;
KIL steps PC back; an unstable opcode is refused. -/

namespace Sys2Proof.Machine

/-- Settles O27: SLO, RLA, SRE, RRA, DCP and ISC, in this order, each modify the byte of each of the seven memory modes
and run their ALU operation on it, after C is set: so RRA adds the carry of its rotate. -/
theorem combinedModifyForms : Obligations.CombinedModifyForms :=
  fun _ _ =>
    ⟨modifyForm_of_exec aslByte_eq oraA_eq, modifyForm_of_exec aslByte_eq oraA_eq,
      modifyForm_of_exec aslByte_eq oraA_eq, modifyForm_of_exec aslByte_eq oraA_eq,
      modifyForm_of_exec aslByte_eq oraA_eq, modifyForm_of_exec aslByte_eq oraA_eq,
      modifyForm_of_exec aslByte_eq oraA_eq,
      modifyForm_of_exec rolByte_eq andA_eq, modifyForm_of_exec rolByte_eq andA_eq,
      modifyForm_of_exec rolByte_eq andA_eq, modifyForm_of_exec rolByte_eq andA_eq,
      modifyForm_of_exec rolByte_eq andA_eq, modifyForm_of_exec rolByte_eq andA_eq,
      modifyForm_of_exec rolByte_eq andA_eq,
      modifyForm_of_exec lsrByte_eq eorA_eq, modifyForm_of_exec lsrByte_eq eorA_eq,
      modifyForm_of_exec lsrByte_eq eorA_eq, modifyForm_of_exec lsrByte_eq eorA_eq,
      modifyForm_of_exec lsrByte_eq eorA_eq, modifyForm_of_exec lsrByte_eq eorA_eq,
      modifyForm_of_exec lsrByte_eq eorA_eq,
      modifyForm_of_exec rorByte_eq adcInto_eq, modifyForm_of_exec rorByte_eq adcInto_eq,
      modifyForm_of_exec rorByte_eq adcInto_eq, modifyForm_of_exec rorByte_eq adcInto_eq,
      modifyForm_of_exec rorByte_eq adcInto_eq, modifyForm_of_exec rorByte_eq adcInto_eq,
      modifyForm_of_exec rorByte_eq adcInto_eq,
      modifyForm_of_exec decByte_eq cmpA_eq, modifyForm_of_exec decByte_eq cmpA_eq,
      modifyForm_of_exec decByte_eq cmpA_eq, modifyForm_of_exec decByte_eq cmpA_eq,
      modifyForm_of_exec decByte_eq cmpA_eq, modifyForm_of_exec decByte_eq cmpA_eq,
      modifyForm_of_exec decByte_eq cmpA_eq,
      modifyForm_of_exec incByte_eq sbcInto_eq, modifyForm_of_exec incByte_eq sbcInto_eq,
      modifyForm_of_exec incByte_eq sbcInto_eq, modifyForm_of_exec incByte_eq sbcInto_eq,
      modifyForm_of_exec incByte_eq sbcInto_eq, modifyForm_of_exec incByte_eq sbcInto_eq,
      modifyForm_of_exec incByte_eq sbcInto_eq⟩

/-- Settles O28: ANC at both its opcodes, ALR, ARR and AXS, in this order, read their operand byte and run the operation
of that name. -/
theorem immediateUnofficialForms : Obligations.ImmediateUnofficialForms :=
  fun _ =>
    ⟨readForm_of_exec ancA_eq, readForm_of_exec ancA_eq, readForm_of_exec alrA_eq, readForm_of_exec arrA_eq,
      readForm_of_exec axsX_eq⟩

/-- Settles O29: KIL at each of its twelve opcodes, in their order, is `park`, which takes one from PC. -/
theorem killForms : Obligations.KillForms :=
  ⟨plainForm_of_exec fun _ => rfl, plainForm_of_exec fun _ => rfl, plainForm_of_exec fun _ => rfl,
    plainForm_of_exec fun _ => rfl, plainForm_of_exec fun _ => rfl, plainForm_of_exec fun _ => rfl,
    plainForm_of_exec fun _ => rfl, plainForm_of_exec fun _ => rfl, plainForm_of_exec fun _ => rfl,
    plainForm_of_exec fun _ => rfl, plainForm_of_exec fun _ => rfl, plainForm_of_exec fun _ => rfl⟩

/-- An unstable opcode has its bytes and its nominal cost, and is refused by its opcode (R262). -/
theorem unstableForm_of_exec {op : Byte} {operands : List Byte} {i : Instr} {n : Nat}
    (hb : encode i = op :: operands := by rfl) (hr : (defaultRow op).base = n := by rfl)
    (he : ∀ s, exec i s = .refused (.unstableOpcode op) := by intro _; rfl) :
    Encodes (op :: operands) i ∧ (defaultRow op).base = n ∧ ∀ s, exec i s = .refused (.unstableOpcode op) :=
  ⟨encodes_of_encode hb, hr, he⟩

/-- Settles O10: XAA, AHX (indirect),Y, TAS, SHY, SHX, AHX absolute,Y, LXA and LAS, in this order, decode and are
refused. -/
theorem unstableOpcodesRefused : Obligations.UnstableOpcodesRefused :=
  fun _ _ =>
    ⟨unstableForm_of_exec, unstableForm_of_exec, unstableForm_of_exec, unstableForm_of_exec, unstableForm_of_exec,
      unstableForm_of_exec, unstableForm_of_exec, unstableForm_of_exec⟩

end Sys2Proof.Machine
end

section
/-! PROOFS. Exceptions and the step (spec/60_exceptions.md): what one step runs at a processor cycle and between two,
what the CPU does at an instruction boundary, where a step stops, and what can clear the NMI latch. -/

namespace Sys2Proof.Machine

/-! The CPU at an instruction boundary and between two. -/

/-- An instruction in flight waits (R301). -/
theorem cpuStep_waiting {s : State} {n : Nat} (h : s.cyclesRemaining = n + 1) :
    cpuStep s = .next { s with cyclesRemaining := n } := by
  have h0 : s.cyclesRemaining ≠ 0 := by omega
  rw [cpuStep, if_neg h0, thenDo, h, Nat.add_sub_cancel]

/-- An NMI is served whatever I is (R303, R304). -/
theorem cpuStep_nmi {s : State} (h0 : s.cyclesRemaining = 0) (hn : s.nmiPending = true) :
    cpuStep s = .next
      { entryLaw 0xFFFA#16 s.pc.toNat false { s with nmiPending := false } with cyclesRemaining := 6 } := by
  rw [cpuStep, if_pos h0, startInstruction, if_pos hn, serviceNmi_law]
  rfl

theorem irqTaken_iff (s : State) : irqTaken s = true ↔ s.irqPending = true ∧ s.flagI = false := by
  simp [irqTaken]

theorem not_irqTaken_iff (s : State) : ¬ irqTaken s = true ↔ s.irqPending = false ∨ s.flagI = true := by
  rw [irqTaken_iff, not_and_or, Bool.not_eq_true, Bool.not_eq_false]

/-- An unmasked IRQ is served when there is no NMI (R303, R305). -/
theorem cpuStep_irq {s : State} (h0 : s.cyclesRemaining = 0) (hn : s.nmiPending = false)
    (hi : s.irqPending = true) (hm : s.flagI = false) :
    cpuStep s = .next { entryLaw 0xFFFE#16 s.pc.toNat false s with cyclesRemaining := 6 } := by
  rw [cpuStep, if_pos h0, startInstruction, if_neg (Bool.eq_false_iff.mp hn), if_pos ((irqTaken_iff s).mpr ⟨hi, hm⟩),
    serviceIrq_law]
  rfl

/-- Otherwise the fetched instruction runs (R300). -/
theorem cpuStep_fetch {s : State} (h0 : s.cyclesRemaining = 0) (hn : s.nmiPending = false)
    (hi : s.irqPending = false ∨ s.flagI = true) :
    cpuStep s = thenDo (exec (fetchInstr s).1 (fetchInstr s).2)
      fun t => { t with cyclesRemaining := t.cyclesRemaining - 1 } := by
  rw [cpuStep, if_pos h0, startInstruction, if_neg (Bool.eq_false_iff.mp hn), if_neg ((not_irqTaken_iff s).mpr hi)]

/-- Settles O32: the three cases of an instruction boundary, in the order of their priority. -/
theorem boundaryServesNmiThenIrq : Obligations.BoundaryServesNmiThenIrq :=
  fun _ h0 => ⟨cpuStep_nmi h0, cpuStep_irq h0, cpuStep_fetch h0⟩

/-! What a step is. -/

theorem step_noCartridge {s : State} (h : s.cart = none) : step s = .refused .noCartridge := by
  rw [step, coordinatorStep, h]

/-- Between two processor cycles a step is the picture unit's dot and the count (R360). -/
theorem step_offCycle {s : State} {c : Cartridge} (hc : s.cart = some c) (h : s.masterCycle % 3 ≠ 0) :
    step s = .next (endMasterCycle s) := by
  rw [step, coordinatorStep, hc]
  dsimp only
  rw [if_neg h, thenDo]

theorem thenDo_thenDo (r : Result) (f g : State → State) : thenDo (thenDo r f) g = thenDo r fun s => g (f s) := by
  cases r <;> rfl

/-- At a processor cycle the DMA engine, or else the CPU, runs before the other agents (R354, R360). -/
theorem step_processorCycle {s : State} {c : Cartridge} (hc : s.cart = some c) (h : s.masterCycle % 3 = 0) :
    step s = thenDo (if s.inDma then .next (dmaStep (beginProcessorCycle s)) else cpuStep (beginProcessorCycle s))
      fun u => endMasterCycle (apuStep (mapperTick u)) := by
  rw [step, coordinatorStep, hc]
  dsimp only
  rw [if_pos h, processorCycle, thenDo_thenDo]
  rfl

theorem step_dma {s : State} {c : Cartridge} (hc : s.cart = some c) (h : s.masterCycle % 3 = 0)
    (hd : s.inDma = true) :
    step s = .next (endMasterCycle (apuStep (mapperTick (dmaStep (beginProcessorCycle s))))) := by
  rw [step_processorCycle hc h, if_pos hd, thenDo]

theorem step_cpu {s : State} {c : Cartridge} (hc : s.cart = some c) (h : s.masterCycle % 3 = 0)
    (hd : s.inDma = false) :
    step s = thenDo (cpuStep (beginProcessorCycle s)) fun u => endMasterCycle (apuStep (mapperTick u)) := by
  rw [step_processorCycle hc h, if_neg (Bool.eq_false_iff.mp hd)]

/-- A step whose CPU answers a next state. -/
theorem step_of_cpuStep {s u : State} {c : Cartridge} (hc : s.cart = some c) (h : s.masterCycle % 3 = 0)
    (hd : s.inDma = false) (hu : cpuStep (beginProcessorCycle s) = .next u) :
    step s = .next (endMasterCycle (apuStep (mapperTick u))) := by
  rw [step_cpu hc h hd, hu, thenDo]

/-! The step and the decoder. -/

/-- Latching the controllers and the IRQ level changes no byte whose read has no effect. -/
theorem busPeek_beginProcessorCycle {s : State} {a : Word} (h : ¬ ReadEffectAddress a) :
    busPeek (beginProcessorCycle s) a = busPeek s a := by
  have h1 : a ≠ 0x4016#16 := by rintro rfl; exact h (.inr (.inr (.inl rfl)))
  have h2 : a ≠ 0x4017#16 := by rintro rfl; exact h (.inr (.inr (.inr rfl)))
  simp only [busPeek, if_neg h1, if_neg h2]
  rfl

/-- The fetch from memory whose reads have no effect: only PC moves. -/
theorem fetchInstr_quiet {s : State} {i : Instr} {rest : List Byte} (h0 : ¬ ReadEffectAddress s.pc)
    (h1 : ¬ ReadEffectAddress (s.pc + 1#16)) (h2 : ¬ ReadEffectAddress (s.pc + 2#16))
    (h : decode [busPeek s s.pc, busPeek s (s.pc + 1#16), busPeek s (s.pc + 2#16)] = .ok (i, rest)) :
    fetchInstr s = (i, { s with pc := s.pc + BitVec.ofNat 16 (encode i).length }) := by
  have hfetch := fetchReadsEachByteOnce s i rest
  simp only [afterRead_of_not_effect h0, afterRead_of_not_effect h1, afterRead_of_not_effect h2, ite_self] at hfetch
  exact hfetch h

/-- Settles O5: the CPU's step is that of a boundary without an interrupt, and its fetch reads the bytes that were
at PC before the step. -/
theorem stepRunsDecodedInstruction : Obligations.StepRunsDecodedInstruction := by
  intro s c i rest hc hm hd h0 hn hi e0 e1 e2 hdec
  have hfetch : fetchInstr (beginProcessorCycle s) =
      (i, { beginProcessorCycle s with pc := s.pc + BitVec.ofNat 16 (encode i).length }) := by
    apply fetchInstr_quiet (s := beginProcessorCycle s) e0 e1 e2 (rest := rest)
    rw [← hdec]
    simp only [beginProcessorCycle_pc]
    rw [busPeek_beginProcessorCycle e0, busPeek_beginProcessorCycle e1, busPeek_beginProcessorCycle e2]
  rw [step_cpu hc hm hd, cpuStep_fetch (s := beginProcessorCycle s) h0 hn hi, hfetch, thenDo_thenDo]

/-! Completion and refusal of an instruction. -/

/-- Every admitted instruction but the branches ends by setting the cost of its row. -/
theorem exec_finish_or_branch {i : Instr} (h : i.wf = true) (s : State) :
    (∃ op crossed u, exec i s = finish (cyclesOf s op crossed) u) ∨
      ∃ op taken off, exec i s = branch op taken off s ∧ op.toNat % 32 = 16 := by
  cases i with
  | xaa _ | ahxIzy _ | tas _ | shy _ | shx _ | ahxAby _ | lxa _ | las _ => cases h
  | bpl _ | bmi _ | bvc _ | bvs _ | bcc _ | bcs _ | bne _ | beq _ => exact .inr ⟨_, _, _, rfl, rfl⟩
  | _ => exact .inl ⟨_, _, _, rfl⟩

/-- An admitted instruction completes; a cost table in range gives it 2 to 8 cycles (R301, R307). -/
theorem exec_admitted {i : Instr} (h : i.wf = true) (s : State) :
    ∃ t, exec i s = .next t ∧ t.args = s.args ∧
      (s.args.cycleTable.Ok → 2 ≤ t.cyclesRemaining ∧ t.cyclesRemaining ≤ 8) := by
  obtain ⟨op, crossed, u, e⟩ | ⟨op, taken, off, e, hop⟩ := exec_finish_or_branch h s
  · exact ⟨_, e, args_closed.exec e fun _ => busWrite_args, fun ht => cyclesOf_range ht op crossed⟩
  · rw [e]
    exact branch_next hop taken off s

/-- The instructions that are not admitted are refused, each with its opcode (R262). -/
theorem exec_unstable {i : Instr} (h : i.wf = false) (s : State) :
    exec i s = .refused (.unstableOpcode (opcodeOf i)) := by
  cases i with
  | xaa _ | ahxIzy _ | tas _ | shy _ | shx _ | ahxAby _ | lxa _ | las _ => rfl
  | _ => cases h

/-- Settles O9, with the laws of the cost table. -/
theorem admittedInstructionsComplete : Obligations.AdmittedInstructionsComplete :=
  ⟨fun _ s => ⟨fun h => exec_admitted h s, fun h => exec_unstable h s⟩,
    fun rows s => ⟨cycleRow_withCycleTable rows s, withCycleTable_ok rows s⟩,
    withCycleTable_default⟩

/-! Where a step stops. -/

/-- The CPU's step answers a next state, or it is at a boundary without an interrupt and the fetched instruction is
refused. -/
theorem cpuStep_next_or_refused (s : State) :
    (∃ t, cpuStep s = .next t) ∨
      (s.cyclesRemaining = 0 ∧ s.nmiPending = false ∧ (s.irqPending = false ∨ s.flagI = true) ∧
        (fetchInstr s).1.wf = false ∧ cpuStep s = .refused (.unstableOpcode (opcodeOf (fetchInstr s).1))) := by
  cases h0 : s.cyclesRemaining with
  | succ n => exact .inl ⟨_, cpuStep_waiting h0⟩
  | zero =>
    cases hn : s.nmiPending with
    | true => exact .inl ⟨_, cpuStep_nmi h0 hn⟩
    | false =>
      by_cases hi : irqTaken s = true
      · obtain ⟨hi, hm⟩ := (irqTaken_iff s).mp hi
        exact .inl ⟨_, cpuStep_irq h0 hn hi hm⟩
      · have hi := (not_irqTaken_iff s).mp hi
        rw [cpuStep_fetch h0 hn hi]
        cases hw : (fetchInstr s).1.wf with
        | true =>
          obtain ⟨t, e, -⟩ := exec_admitted hw (fetchInstr s).2
          exact .inl ⟨_, by rw [e, thenDo]⟩
        | false => exact .inr ⟨rfl, rfl, hi, rfl, by rw [exec_unstable hw, thenDo]⟩

/-- Settles O8: of the agents of a step only the CPU can stop, at an unstable opcode. -/
theorem stepStopsOnlyWhereRefused : Obligations.StepStopsOnlyWhereRefused := by
  intro s
  refine ⟨step_noCartridge, fun hcart => ?_⟩
  obtain ⟨c, hc⟩ := Option.ne_none_iff_exists'.mp hcart
  by_cases hm : s.masterCycle % 3 = 0
  · cases hd : s.inDma with
    | true => exact .inl ⟨_, step_dma hc hm hd⟩
    | false =>
      obtain ⟨u, hu⟩ | ⟨h0, hn, hi, hw, hr⟩ := cpuStep_next_or_refused (beginProcessorCycle s)
      · exact .inl ⟨_, step_of_cpuStep hc hm hd hu⟩
      · exact .inr ⟨hm, rfl, h0, hn, hi, hw, by rw [step_cpu hc hm hd, hr, thenDo]⟩
  · exact .inl ⟨_, step_offCycle hc hm⟩

/-! What the agents other than the CPU leave alone. -/

/-- `t` differs from `s` only in the picture unit, the cartridge, the NMI latch, the audio unit, the ports and the
count of master cycles. -/
def DevicesOnly (s t : State) : Prop :=
  t = { s with
    ppu := t.ppu, cart := t.cart, nmiPending := t.nmiPending, apu := t.apu, port1 := t.port1, port2 := t.port2
    masterCycle := t.masterCycle }

theorem DevicesOnly.trans {s t u : State} (h : DevicesOnly s t) (g : DevicesOnly t u) : DevicesOnly s u := by
  unfold DevicesOnly at *
  rw [g, h]

theorem afterRead_devicesOnly (s : State) (a : Word) : DevicesOnly s (afterRead s a) := by
  obtain ⟨p, c, u, p1, p2, h⟩ := afterRead_shape s a
  rw [h]
  rfl

theorem setApu_devicesOnly (u : Apu) (s : State) : DevicesOnly s { s with apu := u } := rfl

theorem dmcFetch_devicesOnly (s : State) : DevicesOnly s (dmcFetch s) := by
  unfold dmcFetch
  split
  · exact (afterRead_devicesOnly s _).trans (setApu_devicesOnly _ _)
  · rfl

theorem apuStep_devicesOnly (s : State) : DevicesOnly s (apuStep s) :=
  (setApu_devicesOnly s.apu.stepChannels s).trans ((dmcFetch_devicesOnly _).trans (setApu_devicesOnly _ _))

theorem endMasterCycle_devicesOnly (s : State) : DevicesOnly s (endMasterCycle s) := by
  unfold DevicesOnly endMasterCycle ppuStep State.withPic
  rfl

/-- The agents that follow the CPU or the DMA engine in a processor cycle leave both alone. -/
theorem restOfCycle_devicesOnly (s : State) : DevicesOnly s (endMasterCycle (apuStep s)) :=
  (apuStep_devicesOnly s).trans (endMasterCycle_devicesOnly _)

/-- A DMA cycle changes, besides the devices, the DMA registers but for the page (R351). -/
theorem dmaStep_devicesOnly (s : State) :
    DevicesOnly
      { s with inDma := (dmaStep s).inDma, dmaCounter := (dmaStep s).dmaCounter, dmaValue := (dmaStep s).dmaValue }
      (dmaStep s) := by
  have ht : DevicesOnly { s with dmaValue := (dmaTransfer s).dmaValue } (dmaTransfer s) := by
    unfold dmaTransfer
    split
    · rfl
    · split
      · obtain ⟨p, c, u, p1, p2, h⟩ := afterRead_shape s (dmaAddress s)
        dsimp only [busRead]
        rw [h]
        rfl
      · rfl
  unfold DevicesOnly at *
  unfold dmaStep
  dsimp only
  split <;> rw [ht]

/-- The CPU's registers and the DMA registers are the same in two such states. -/
theorem DevicesOnly.registers {s t : State} (h : DevicesOnly s t) :
    t.a = s.a ∧ t.x = s.x ∧ t.y = s.y ∧ t.sp = s.sp ∧ t.pc = s.pc ∧ statusByte false t = statusByte false s ∧
      t.cyclesRemaining = s.cyclesRemaining ∧ t.inDma = s.inDma ∧ t.dmaPage = s.dmaPage ∧
      t.dmaCounter = s.dmaCounter ∧ t.dmaValue = s.dmaValue := by
  unfold DevicesOnly at h
  rw [h]
  exact ⟨rfl, rfl, rfl, rfl, rfl, rfl, rfl, rfl, rfl, rfl, rfl⟩

theorem DevicesOnly.flagI {s t : State} (h : DevicesOnly s t) : t.flagI = s.flagI := by
  unfold DevicesOnly at h
  rw [h]

/-! The NMI latch. -/

/-- A pending NMI is pending in `t` too. -/
def NmiKept (s t : State) : Prop := s.nmiPending = true → t.nmiPending = true

theorem nmiKept_readClosed : ReadClosed NmiKept where
  trans h g := fun e => g (h e)
  regs h e := by
    unfold RegsOnly at h
    rw [h]
    exact e
  read s a e := (afterRead_nmiPending s a).trans e

/-- A write to the control register can only raise an NMI (R387). -/
theorem nmiKept_writeClosed : WriteClosed NmiKept := by
  intro s a x
  obtain ⟨-, -, -, hn, -⟩ := busWrite_keeps s a x
  exact hn

theorem endMasterCycle_nmiKept (s : State) : NmiKept s (endMasterCycle s) := s.pic.step_cart.2

theorem restOfCycle_nmiKept (s : State) : NmiKept s (endMasterCycle (apuStep s)) :=
  nmiKept_readClosed.trans (nmiKept_readClosed.apuStep (fun _ => id) (fun _ _ => id) (fun _ => id) s)
    (endMasterCycle_nmiKept _)

theorem dmaStep_nmiKept (s : State) : NmiKept s (dmaStep s) :=
  nmiKept_readClosed.dmaStep nmiKept_writeClosed (fun _ _ _ _ => id) s

theorem NmiKept.pending {s t : State} (h : NmiKept s t) (hs : s.nmiPending = true) : t.nmiPending ≠ false :=
  Bool.ne_false_iff.mpr (h hs)

/-- Settles O34: the dot, the audio unit and the DMA engine keep a pending NMI, and so does a waiting CPU; at a
boundary the CPU serves it. -/
theorem nmiLatchClearedOnlyByService : Obligations.NmiLatchClearedOnlyByService := by
  intro s t e hs ht
  obtain ⟨-, ⟨-, rfl⟩ | ⟨-, -, rfl⟩ | ⟨hm, hd, u, hu, rfl⟩⟩ := step_next e
  · exact absurd ht ((endMasterCycle_nmiKept s).pending hs)
  · have hdma : NmiKept (beginProcessorCycle s) (endMasterCycle (apuStep (dmaStep (beginProcessorCycle s)))) :=
      nmiKept_readClosed.trans (dmaStep_nmiKept _) (restOfCycle_nmiKept _)
    exact absurd ht (hdma.pending hs)
  · have hrest := restOfCycle_devicesOnly u
    cases h0 : s.cyclesRemaining with
    | succ n =>
      rw [cpuStep_waiting (s := beginProcessorCycle s) h0] at hu
      injection hu with hu
      subst hu
      exact absurd ht ((restOfCycle_nmiKept _).pending hs)
    | zero =>
      rw [cpuStep_nmi (s := beginProcessorCycle s) h0 hs] at hu
      injection hu with hu
      subst hu
      obtain ⟨-, -, -, -, -, -, hcycles, -⟩ := hrest.registers
      exact ⟨hm, hd, rfl, hcycles, hrest.flagI⟩

/-! The agents of a step. -/

/-- A DMA cycle in the CPU's place: the CPU is frozen and the DMA registers are what the cycle leaves (R353, R354). -/
theorem dmaCycle_registers (b : State) :
    let t := endMasterCycle (apuStep (mapperTick (dmaStep b)))
    t.a = b.a ∧ t.x = b.x ∧ t.y = b.y ∧ t.sp = b.sp ∧ t.pc = b.pc ∧ statusByte false t = statusByte false b ∧
      t.cyclesRemaining = b.cyclesRemaining ∧ t.inDma = (dmaStep b).inDma ∧ t.dmaPage = b.dmaPage ∧
      t.dmaCounter = (dmaStep b).dmaCounter ∧ t.dmaValue = (dmaStep b).dmaValue := by
  intro t
  have ht : t = endMasterCycle (apuStep (dmaStep b)) := by rw [← mapperTick_eq (dmaStep b)]
  rw [ht]
  exact ((dmaStep_devicesOnly b).trans (restOfCycle_devicesOnly _)).registers

theorem dmaCycle_nmiKept (b : State) : NmiKept b (endMasterCycle (apuStep (mapperTick (dmaStep b)))) := by
  rw [mapperTick_eq]
  exact nmiKept_readClosed.trans (dmaStep_nmiKept b) (restOfCycle_nmiKept _)

/-- Settles O7: a waiting CPU; the cases of a processor cycle, which are the DMA engine's and those of the CPU's step;
and the dot alone. -/
theorem processorAndOffCycles : Obligations.ProcessorAndOffCycles := by
  refine ⟨fun _ _ => cpuStep_waiting, ?processor, fun s c hc hm =>
    ⟨_, step_offCycle hc hm, rfl, endMasterCycle_nmiKept s, step_fixedPart (step_offCycle hc hm)⟩⟩
  intro s c hc hm b rest
  refine ⟨step_processorCycle hc hm, ?dma, ?wait, ?nmi, ?irq⟩
  case dma =>
    intro hd
    obtain ⟨ha, hx, hy, hsp, hpc, hp, hcycles, hdma, hpage, hcounter, hvalue⟩ := dmaCycle_registers b
    exact ⟨_, step_dma hc hm hd, rfl, ha, hx, hy, hsp, hpc, hp, hcycles, hdma, hpage, hcounter, hvalue,
      dmaCycle_nmiKept b⟩
  case wait => exact fun hd _ h0 => step_of_cpuStep hc hm hd (cpuStep_waiting h0)
  case nmi => exact fun hd h0 hn => step_of_cpuStep hc hm hd (cpuStep_nmi h0 hn)
  case irq => exact fun hd h0 hn hi hf => step_of_cpuStep hc hm hd (cpuStep_irq h0 hn hi hf)

end Sys2Proof.Machine
end

section
/-! PROOFS. The coordinator (spec/61_bus_dma_coordinator.md): the invariant of the machine, the IRQ level, the end of a
frame, OAM DMA and the controller ports. -/

namespace Sys2Proof.Machine

/-! The invariant. -/

theorem restOk_writeClosed : WriteClosed (fun s t => s.RestOk → t.RestOk) := fun _ a x h => h.busWrite a x

theorem State.RestOk.apuStep {s : State} (h : s.RestOk) : (apuStep s).RestOk :=
  restOk_closed.apuStep (fun _ k => k.withApu k.apu.stepChannels) (fun _ b k => k.withApu (k.apu.takeDmcByte b))
    (fun _ k => k.withApu k.apu.appendSample) s h

theorem State.RestOk.endMasterCycle {s : State} (h : s.RestOk) : (endMasterCycle s).RestOk := by
  obtain ⟨ram, dmaCounter, ppu, apu, cart⟩ := h.withPic h.pic.step
  exact ⟨ram, dmaCounter, ppu, apu, cart⟩

/-- A step keeps the memories in form and every counter in range but for the cycles left. -/
theorem State.RestOk.step {s t : State} (h : s.RestOk) (e : step s = .next t) : t.RestOk := by
  obtain ⟨u, hu, rfl⟩ := restOk_closed.step restOk_writeClosed
    (fun _ k => ⟨k.ram, k.dmaCounter, k.ppu, k.apu, k.cart⟩) (fun _ => State.RestOk.dmaStep)
    (fun _ k => ⟨k.ram, k.dmaCounter, k.ppu, k.apu, k.cart⟩) (fun _ => State.RestOk.apuStep) e
  exact (hu h).endMasterCycle

/-- An instruction that completes costs at most 8 cycles (R301). -/
theorem exec_cyclesRemaining_le {i : Instr} {s t : State} (ht : s.args.cycleTable.Ok) (e : exec i s = .next t) :
    t.cyclesRemaining ≤ 8 := by
  cases hw : i.wf with
  | true =>
    obtain ⟨u, hu, -, hcost⟩ := exec_admitted hw s
    obtain rfl := Host.Outcome.next.inj (hu.symm.trans e)
    exact (hcost ht).2
  | false => exact nomatch (exec_unstable hw s).symm.trans e

/-- The CPU's step leaves at most 7 cycles: an instruction costs at most 8, an interrupt entry 7, and one is counted
off at once (R301, R306). -/
theorem cpuStep_cyclesRemaining {s t : State} (ht : s.args.cycleTable.Ok) (h : s.cyclesRemaining ≤ 7)
    (e : cpuStep s = .next t) : t.cyclesRemaining ≤ 7 := by
  cases h0 : s.cyclesRemaining with
  | succ n =>
    obtain rfl := Host.Outcome.next.inj ((cpuStep_waiting h0).symm.trans e)
    show n ≤ 7
    omega
  | zero =>
    cases hn : s.nmiPending with
    | true =>
      obtain rfl := Host.Outcome.next.inj ((cpuStep_nmi h0 hn).symm.trans e)
      exact Nat.le_succ 6
    | false =>
      by_cases hi : irqTaken s = true
      · obtain ⟨hi, hm⟩ := (irqTaken_iff s).mp hi
        obtain rfl := Host.Outcome.next.inj ((cpuStep_irq h0 hn hi hm).symm.trans e)
        exact Nat.le_succ 6
      · rw [cpuStep_fetch h0 hn ((not_irqTaken_iff s).mp hi)] at e
        obtain ⟨u, hu, rfl⟩ := thenDo_next e
        have hargs : (fetchInstr s).2.args = s.args := args_closed.fetchInstr s
        exact Nat.sub_le_of_le_add (exec_cyclesRemaining_le (hargs ▸ ht) hu)

/-- Only the CPU sets the cycles left of an instruction. -/
theorem step_cyclesRemaining {s t : State} (ht : s.args.cycleTable.Ok) (h : s.cyclesRemaining ≤ 7)
    (e : step s = .next t) : t.cyclesRemaining ≤ 7 := by
  obtain ⟨-, ⟨-, rfl⟩ | ⟨-, -, rfl⟩ | ⟨-, -, u, hu, rfl⟩⟩ := step_next e
  · exact h
  · obtain ⟨-, -, -, -, -, -, hcycles, -⟩ :=
      ((dmaStep_devicesOnly (beginProcessorCycle s)).trans (restOfCycle_devicesOnly _)).registers
    exact hcycles.trans_le h
  · obtain ⟨-, -, -, -, -, -, hcycles, -⟩ := (restOfCycle_devicesOnly u).registers
    exact hcycles.trans_le (cpuStep_cyclesRemaining (s := beginProcessorCycle s) ht h hu)

/-- Settles O60: the memories and counters of the devices, the cycles left, and the arguments, which no step changes. -/
theorem stepKeepsInvariant : Obligations.StepKeepsInvariant := by
  intro s t h e
  have hrest : t.RestOk := State.RestOk.step ⟨h.ram, h.dmaCounter, h.ppu, h.apu, h.cart⟩ e
  have hargs := step_args e
  exact ⟨step_cyclesRemaining h.cycleTable h.cyclesRemaining e, hrest.ram, hrest.dmaCounter, hrest.ppu, hrest.apu,
    hrest.cart, hargs ▸ h.cycleTable, hargs ▸ h.powerOn⟩

/-! The IRQ level. -/

theorem DevicesOnly.irqPending {s t : State} (h : DevicesOnly s t) : t.irqPending = s.irqPending := by
  unfold DevicesOnly at h
  rw [h]

/-- Settles O33: the level is recomputed where a processor cycle begins, and neither the CPU nor the DMA engine nor a
device sets it. -/
theorem irqLevelRecomputed : Obligations.IrqLevelRecomputed := by
  intro s t e
  obtain ⟨-, ⟨hm, rfl⟩ | ⟨hm, -, rfl⟩ | ⟨hm, -, u, hu, rfl⟩⟩ := step_next e
  · exact ⟨fun h => absurd h hm, fun _ => rfl⟩
  · have hdma := (dmaStep_devicesOnly (beginProcessorCycle s)).trans (restOfCycle_devicesOnly _)
    exact ⟨fun _ => hdma.irqPending, fun h => absurd hm h⟩
  · have hcpu : LinesKept (beginProcessorCycle s) u :=
      linesKept_readClosed.cpuStep linesKept_writeClosed (fun _ => ⟨rfl, rfl, rfl, rfl, rfl, rfl⟩) hu
    exact ⟨fun _ => (restOfCycle_devicesOnly u).irqPending.trans hcpu.irqPending, fun h => absurd hm h⟩

/-! Running to the end of a frame. -/

/-- The picture unit of `t` is at the dot and the scanline of that of `s`. -/
def PositionKept (s t : State) : Prop := t.ppu.dot = s.ppu.dot ∧ t.ppu.scanline = s.ppu.scanline

theorem positionKept_readClosed : ReadClosed PositionKept where
  trans h g := ⟨g.1.trans h.1, g.2.trans h.2⟩
  regs h := by
    unfold RegsOnly at h
    rw [h]
    exact ⟨rfl, rfl⟩
  read s a := by
    obtain ⟨-, _, _, _, _, h⟩ := afterRead_keeps s a
    rw [PositionKept, h]
    exact ⟨rfl, rfl⟩

theorem positionKept_writeClosed : WriteClosed PositionKept := by
  intro s a x
  obtain ⟨hdot, hscanline, -⟩ := busWrite_keeps s a x
  exact ⟨hdot, hscanline⟩

/-- The dots from a position to scanline 240, dot 0, at least one: of the same frame, or of the next one. -/
def dotsToFrameEnd (s : State) : Nat :=
  if s.ppu.scanline < 240 then 341 * (240 - s.ppu.scanline) - s.ppu.dot
  else 341 * (502 - s.ppu.scanline) - s.ppu.dot

/-- The picture unit is at a dot of a scanline. -/
def LegalPosition (s : State) : Prop := s.ppu.dot ≤ 340 ∧ s.ppu.scanline ≤ 261

theorem dotsToFrameEnd_pos {s : State} (h : LegalPosition s) : 0 < dotsToFrameEnd s := by
  obtain ⟨hdot, hscanline⟩ := h
  unfold dotsToFrameEnd
  split <;> omega

theorem dotsToFrameEnd_le {s : State} (h : LegalPosition s) : dotsToFrameEnd s ≤ frameCycles := by
  obtain ⟨hdot, hscanline⟩ := h
  unfold dotsToFrameEnd frameCycles
  split <;> omega

theorem atFrameEnd_iff (s : State) : atFrameEnd s = true ↔ s.ppu.scanline = 240 ∧ s.ppu.dot = 0 := by
  simp [atFrameEnd]

/-- The parity of the frame changes only where the vertical blank starts (R412). -/
theorem Pic.dotWork_oddFrame (q : Pic) (h : ¬ (q.ppu.scanline = 241 ∧ q.ppu.dot = 1)) :
    q.dotWork.ppu.oddFrame = q.ppu.oddFrame := by
  by_cases hclear : q.ppu.scanline = 261 ∧ q.ppu.dot = 1
  · rw [q.dotWork_clear hclear]
  · exact (q.dotWork_keeps h hclear).oddFrame

/-- The position after a dot, by the position and the parity before it (R415, R416). -/
theorem ppuStep_position (s : State) :
    ((ppuStep s).ppu.dot, (ppuStep s).ppu.scanline) =
      (if s.ppu.dot = 340 ∨ (s.ppu.dot = 339 ∧ s.ppu.scanline = 261 ∧ s.ppu.oddFrame = true) then
        (0, if s.ppu.scanline = 261 then 0 else s.ppu.scanline + 1)
       else (s.ppu.dot + 1, s.ppu.scanline)) := by
  obtain ⟨hdot, hscanline⟩ : s.pic.dotWork.ppu.dot = s.ppu.dot ∧ s.pic.dotWork.ppu.scanline = s.ppu.scanline :=
    s.pic.dotWork_position
  have hskip : (s.ppu.dot = 339 ∧ s.ppu.scanline = 261 ∧ s.pic.dotWork.ppu.oddFrame = true) ↔
      (s.ppu.dot = 339 ∧ s.ppu.scanline = 261 ∧ s.ppu.oddFrame = true) := by
    refine and_congr_right fun _ => and_congr_right fun h => ?_
    have hstart : ¬ (s.pic.ppu.scanline = 241 ∧ s.pic.ppu.dot = 1) := fun e => by
      have : s.ppu.scanline = 241 := e.1
      omega
    exact iff_of_eq (congrArg (· = true) (s.pic.dotWork_oddFrame hstart))
  have h := s.pic.dotWork.ppu.advancePosition_eq
  simp only [hdot, hscanline, hskip] at h
  exact h

/-- A dot of the picture unit leads to the end of the frame or comes nearer to it, by one dot or by two where one is
skipped (R415, R416). -/
theorem ppuStep_nearer {s t : State} (h : LegalPosition s) (ht : PositionKept (ppuStep s) t) :
    LegalPosition t ∧ (atFrameEnd t = true ∨ dotsToFrameEnd t < dotsToFrameEnd s) := by
  obtain ⟨hdot, hscanline⟩ := h
  have hnext := ppuStep_position s
  rw [← ht.1, ← ht.2] at hnext
  rw [atFrameEnd_iff]
  unfold LegalPosition dotsToFrameEnd
  split_ifs at hnext
  all_goals
    obtain ⟨edot, escanline⟩ := Prod.mk.inj hnext
    rw [edot, escanline]
    split_ifs <;> omega

/-- A step is one dot of the picture unit, which neither the CPU nor another agent moves. -/
theorem step_nearer {s t : State} (h : LegalPosition s) (e : step s = .next t) :
    LegalPosition t ∧ (atFrameEnd t = true ∨ dotsToFrameEnd t < dotsToFrameEnd s) := by
  have hr := positionKept_readClosed
  have hw := positionKept_writeClosed
  obtain ⟨u, ⟨hdot, hscanline⟩, rfl⟩ := hr.step hw (fun _ => ⟨rfl, rfl⟩)
    (fun s => hr.dmaStep hw (fun _ _ _ _ => ⟨rfl, rfl⟩) s) (fun _ => ⟨rfl, rfl⟩)
    (fun s => hr.apuStep (fun _ => ⟨rfl, rfl⟩) (fun _ _ => ⟨rfl, rfl⟩) (fun _ => ⟨rfl, rfl⟩) s) e
  have hdist : dotsToFrameEnd u = dotsToFrameEnd s := by rw [dotsToFrameEnd, dotsToFrameEnd, hdot, hscanline]
  rw [← hdist]
  exact ppuStep_nearer ⟨hdot ▸ h.1, hscanline ▸ h.2⟩ ⟨rfl, rfl⟩

/-- A run whose first step answers a next state goes on from it. -/
theorem run_of_step {M : Host.Core} {s t : M.State} (h : M.step s = .next t) (n : Nat) :
    M.run (n + 1) s = M.run n t := by
  rw [Host.Core.run, h]

/-- Fuel for the dots to the end of the frame is enough to reach it, and at most that many steps are taken. -/
theorem runToFrameEnd_next {fuel : Nat} : ∀ {s t : State}, LegalPosition s → dotsToFrameEnd s ≤ fuel →
    runToFrameEnd fuel s = .next t →
      atFrameEnd t = true ∧ ∃ n, 1 ≤ n ∧ n ≤ fuel ∧ Host.Core.run Sys2Proof.core n s = .next t := by
  induction fuel with
  | zero =>
    intro s t h hfuel _
    have := dotsToFrameEnd_pos h
    omega
  | succ fuel ih =>
    intro s t h hfuel e
    unfold runToFrameEnd at e
    cases hs : coordinatorStep s with
    | fault f => rw [hs] at e; cases e
    | refused f => rw [hs] at e; cases e
    | next u =>
      rw [hs] at e
      have hrun : ∀ n, Host.Core.run Sys2Proof.core (n + 1) s = Host.Core.run Sys2Proof.core n u :=
        fun n => run_of_step (M := Sys2Proof.core) hs n
      obtain ⟨hlegal, hend⟩ := step_nearer h hs
      by_cases hu : atFrameEnd u = true
      · simp only [hu, if_true] at e
        injection e with e
        subst e
        exact ⟨hu, 1, le_refl _, by omega, hrun 0⟩
      · simp only [hu] at e
        obtain ⟨ht, n, hn, hle, e⟩ := ih hlegal (by have := hend.resolve_left hu; omega) e
        exact ⟨ht, n + 1, by omega, by omega, (hrun n).trans e⟩

/-- Settles O48: the dots to the end of the frame are a measure of the loop, and a frame has 89342 of them. -/
theorem runFrameEndsAtLine240 : Obligations.RunFrameEndsAtLine240 := by
  intro s t hdot hscanline e
  obtain ⟨hend, hrun⟩ := runToFrameEnd_next ⟨hdot, hscanline⟩ (dotsToFrameEnd_le ⟨hdot, hscanline⟩) e
  obtain ⟨h1, h2⟩ := (atFrameEnd_iff t).mp hend
  exact ⟨h1, h2, hrun⟩

/-! OAM DMA. -/

/-- The count of DMA cycles done when a transfer starts, by parity or by the argument (R352, D18). -/
theorem startDma_counter (s : State) :
    (if longDma s then 0 else 1) =
      match s.args.dmaLength with
      | .parity => 1 - s.masterCycle / 3 % 2
      | .always513 => 1
      | .always514 => 0 := by
  unfold longDma
  cases s.args.dmaLength with
  | parity =>
    simp only [decide_eq_true_eq]
    split <;> omega
  | always513 => rfl
  | always514 => rfl

/-- The address of byte `k` of the page a transfer copies (R351). -/
def dmaSource (s : State) (k : Byte) : Word := BitVec.ofNat 16 (256 * s.dmaPage.toNat + k.toNat)

/-- The bus work of a cycle, and then the count (R351). -/
theorem dmaStep_continues {s : State} (h : s.dmaCounter ≠ 513) :
    dmaStep s = { dmaTransfer s with dmaCounter := s.dmaCounter + 1 } :=
  if_neg (by omega)

/-- The last cycle ends the transfer (R353). -/
theorem dmaStep_ends {s : State} (h : s.dmaCounter = 513) :
    dmaStep s = { dmaTransfer s with inDma := false, dmaCounter := 0 } :=
  if_pos (by omega)

theorem dmaTransfer_idle {s : State} (h : s.dmaCounter < 2) : dmaTransfer s = s := if_pos h

/-- Cycle `2 k + 2` reads byte `k` of the page. -/
theorem dmaTransfer_read {s : State} {k : Byte} (h : s.dmaCounter = 2 * k.toNat + 2) :
    dmaTransfer s = { afterRead s (dmaSource s k) with dmaValue := busPeek s (dmaSource s k) } := by
  have hk := k.isLt
  have hbyte : BitVec.ofNat 8 ((s.dmaCounter - 2) / 2) = k := by
    apply BitVec.eq_of_toNat_eq
    rw [BitVec.toNat_ofNat]
    omega
  have hsource : dmaAddress s = dmaSource s k := by
    rw [dmaAddress, hbyte, wordOf_eq, dmaSource, Nat.add_comm]
  rw [dmaTransfer, if_neg (by omega), if_pos (by omega), hsource]
  rfl

/-- The next one writes it through the OAM data port. -/
theorem dmaTransfer_write {s : State} {k : Byte} (h : s.dmaCounter = 2 * k.toNat + 3) :
    dmaTransfer s = { s with ppu := s.ppu.writeOam s.dmaValue } := by
  rw [dmaTransfer, if_neg (by omega), if_neg (by omega)]
  rfl

/-- An idle cycle (R351, R352). -/
theorem dmaStep_idle {s : State} (h : s.dmaCounter < 2) : dmaStep s = { s with dmaCounter := s.dmaCounter + 1 } := by
  rw [dmaStep_continues (by omega), dmaTransfer_idle h]

theorem dmaStep_read {s : State} {k : Byte} (h : s.dmaCounter = 2 * k.toNat + 2) :
    dmaStep s =
      { afterRead s (dmaSource s k) with dmaValue := busPeek s (dmaSource s k), dmaCounter := s.dmaCounter + 1 } := by
  rw [dmaStep_continues (by omega), dmaTransfer_read h]

/-- The write of byte 255 is the last cycle. -/
theorem dmaStep_write {s : State} {k : Byte} (h : s.dmaCounter = 2 * k.toNat + 3) :
    dmaStep s =
      { s with
        ppu := s.ppu.writeOam s.dmaValue
        inDma := if k = 255#8 then false else s.inDma
        dmaCounter := if k = 255#8 then 0 else s.dmaCounter + 1 } := by
  have hlast : k = 255#8 ↔ s.dmaCounter = 513 := by
    rw [← BitVec.toNat_inj, h]
    show k.toNat = 255 ↔ _
    omega
  by_cases hk : k = 255#8
  · rw [dmaStep_ends (hlast.mp hk), dmaTransfer_write h, if_pos hk, if_pos hk]
  · rw [dmaStep_continues (mt hlast.mpr hk), dmaTransfer_write h, if_neg hk, if_neg hk]

/-- Every cycle of a transfer but the last counts one and leaves the transfer in progress. -/
theorem dmaStep_inProgress {s : State} (h : s.dmaCounter ≠ 513) :
    (dmaStep s).dmaCounter = s.dmaCounter + 1 ∧ (dmaStep s).inDma = s.inDma := by
  have hkeep : (dmaTransfer s).inDma = s.inDma := by
    unfold dmaTransfer
    split_ifs
    · rfl
    · exact afterRead_inDma s _
    · rfl
  rw [dmaStep_continues h]
  exact ⟨rfl, hkeep⟩

theorem dmaStep_iterate_inProgress (s : State) : ∀ n, s.dmaCounter + n ≤ 513 →
    (dmaStep^[n] s).dmaCounter = s.dmaCounter + n ∧ (dmaStep^[n] s).inDma = s.inDma
  | 0, _ => ⟨rfl, rfl⟩
  | n + 1, h => by
    obtain ⟨hcounter, hdma⟩ := dmaStep_iterate_inProgress s n (by omega)
    obtain ⟨hcounter', hdma'⟩ := dmaStep_inProgress (s := dmaStep^[n] s) (by omega)
    rw [Function.iterate_succ_apply']
    exact ⟨by omega, hdma'.trans hdma⟩

/-- OAM after the first `n` bytes of a page were written through the data port, the first at `addr`. -/
def oamCopied (oam : Memory) (addr : Byte) (bytes : Byte → Byte) : Nat → Memory
  | 0 => oam
  | n + 1 => Memory.write (oamCopied oam addr bytes n) (addr + BitVec.ofNat 8 n).toNat (bytes (BitVec.ofNat 8 n))

theorem oamCopied_wf {oam : Memory} (h : Memory.wf oam = true) (addr : Byte) (bytes : Byte → Byte) :
    ∀ n, Memory.wf (oamCopied oam addr bytes n) = true
  | 0 => h
  | n + 1 => Memory.write_wf _ _ (oamCopied_wf h addr bytes n)

/-- Byte `k` of those written is at its address, modulo 256: no later one of the page overwrites it. -/
theorem read_oamCopied {oam : Memory} (h : Memory.wf oam = true) (addr : Byte) (bytes : Byte → Byte) (k : Byte) :
    ∀ n, k.toNat < n → n ≤ 256 → Memory.read (oamCopied oam addr bytes n) (addr + k).toNat = bytes k
  | 0, hk, _ => absurd hk (by omega)
  | n + 1, hk, hn => by
    have hcell : (addr + k).toNat = (addr + BitVec.ofNat 8 n).toNat ↔ k = BitVec.ofNat 8 n := by
      rw [BitVec.toNat_inj, BitVec.add_right_inj]
    rw [oamCopied, Memory.read_write _ _ _ (oamCopied_wf h addr bytes n)]
    by_cases he : k = BitVec.ofNat 8 n
    · rw [if_pos (hcell.mpr he), ← he]
    · rw [if_neg (mt hcell.mp he)]
      have hne : k.toNat ≠ n := fun e => he (by rw [← e, BitVec.ofNat_toNat, BitVec.setWidth_eq])
      exact read_oamCopied h addr bytes k n (by omega) (by omega)

/-- A page none of whose reads has an effect is of plain memory: the device pages 0x20 to 0x40 each hold an address
whose read has one. -/
theorem dmaSource_plain {s : State} (h : ∀ k, ¬ ReadEffectAddress (dmaSource s k)) (k : Byte) :
    PlainAddress (dmaSource s k) := by
  have hp := s.dmaPage.isLt
  have hk := k.isLt
  have hnumber : ∀ k : Byte, (dmaSource s k).toNat = 256 * s.dmaPage.toNat + k.toNat := fun k => by
    have := k.isLt
    rw [dmaSource, BitVec.toNat_ofNat]
    omega
  have h2 := h 2#8
  have h21 := h 0x15#8
  simp only [ReadEffectAddress, hnumber] at h2 h21
  simp only [PlainAddress, hnumber]
  have e2 : (2#8 : Byte).toNat = 2 := rfl
  have e21 : (0x15#8 : Byte).toNat = 21 := rfl
  omega

/-- A transfer that has copied the first `n` bytes of its page; `value` is the byte read last. -/
def dmaCopied (s : State) (value : Byte) (n : Nat) : State :=
  { s with
    dmaCounter := 2 * n + 2
    dmaValue := value
    ppu := { s.ppu with
      oam := oamCopied s.ppu.oam s.ppu.oamAddr (fun k => busPeek s (dmaSource s k)) n
      oamAddr := s.ppu.oamAddr + BitVec.ofNat 8 n } }

/-- The idle cycles of a transfer. -/
theorem dmaStep_iterate_idle {s : State} (h : s.dmaCounter ≤ 1) :
    dmaStep^[2 - s.dmaCounter] s = dmaCopied s s.dmaValue 0 := by
  have hzero : dmaCopied s s.dmaValue 0 = { s with dmaCounter := 2 } := by
    simp [dmaCopied, oamCopied]
  rw [hzero]
  rcases (by omega : s.dmaCounter = 0 ∨ s.dmaCounter = 1) with h0 | h1
  · rw [h0]
    show dmaStep (dmaStep s) = _
    rw [dmaStep_idle (s := s) (by omega), h0]
    exact dmaStep_idle Nat.one_lt_two
  · rw [h1]
    show dmaStep s = _
    rw [dmaStep_idle (by omega), h1]

/-- Two cycles copy the next byte. -/
theorem dmaStep_copies {s : State} (h : ∀ k, ¬ ReadEffectAddress (dmaSource s k)) (value : Byte) {n : Nat}
    (hn : n < 256) :
    dmaStep (dmaStep (dmaCopied s value n)) =
      { dmaCopied s (busPeek s (dmaSource s (BitVec.ofNat 8 n))) (n + 1) with
        inDma := if n = 255 then false else s.inDma
        dmaCounter := if n = 255 then 0 else 2 * (n + 1) + 2 } := by
  have hbyte : (BitVec.ofNat 8 n).toNat = n := by
    rw [BitVec.toNat_ofNat]
    omega
  have hlast : BitVec.ofNat 8 n = 255#8 ↔ n = 255 := by
    rw [← BitVec.toNat_inj, hbyte]
    rfl
  have hpeek : busPeek (dmaCopied s value n) (dmaSource s (BitVec.ofNat 8 n)) =
      busPeek s (dmaSource s (BitVec.ofNat 8 n)) := busPeek_congr (dmaSource_plain h _) rfl rfl
  have haddr : s.ppu.oamAddr + BitVec.ofNat 8 n + 1#8 = s.ppu.oamAddr + BitVec.ofNat 8 (n + 1) := by
    rw [BitVec.add_assoc, BitVec.ofNat_add]
  have hread := dmaStep_read (s := dmaCopied s value n) (k := BitVec.ofNat 8 n) (by rw [hbyte]; rfl)
  rw [show dmaSource (dmaCopied s value n) = dmaSource s from rfl, afterRead_of_not_effect (h _), hpeek] at hread
  rw [hread, dmaStep_write (k := BitVec.ofNat 8 n) (by rw [hbyte]; rfl)]
  simp only [dmaCopied, hlast, Ppu.writeOam, haddr]
  rfl

theorem dmaStep_iterate_copies {s : State} (h : ∀ k, ¬ ReadEffectAddress (dmaSource s k)) (value : Byte) :
    ∀ n, n ≤ 255 → ∃ v, dmaStep^[2 * n] (dmaCopied s value 0) = dmaCopied s v n
  | 0, _ => ⟨value, rfl⟩
  | n + 1, hn => by
    obtain ⟨v, e⟩ := dmaStep_iterate_copies h value n (by omega)
    refine ⟨busPeek s (dmaSource s (BitVec.ofNat 8 n)), ?_⟩
    rw [show 2 * (n + 1) = 2 * n + 1 + 1 by omega, Function.iterate_succ_apply', Function.iterate_succ_apply', e,
      dmaStep_copies h v (by omega), if_neg (by omega), if_neg (by omega)]
    rfl

/-- A whole transfer over a page whose reads have no effect copies the page and ends (R350 to R353). -/
theorem dmaStep_iterate_transfer {s : State} (hc : s.dmaCounter ≤ 1)
    (h : ∀ k, ¬ ReadEffectAddress (dmaSource s k)) :
    ∃ value, dmaStep^[514 - s.dmaCounter] s =
      { s with
        inDma := false, dmaCounter := 0, dmaValue := value
        ppu := { s.ppu with
          oam := oamCopied s.ppu.oam s.ppu.oamAddr (fun k => busPeek s (dmaSource s k)) 256 } } := by
  obtain ⟨v, e⟩ := dmaStep_iterate_copies h s.dmaValue 255 (le_refl _)
  refine ⟨busPeek s (dmaSource s 255#8), ?_⟩
  have hwrap : s.ppu.oamAddr + BitVec.ofNat 8 256 = s.ppu.oamAddr := by
    rw [show BitVec.ofNat 8 256 = 0#8 from rfl, BitVec.add_zero]
  rw [show 514 - s.dmaCounter = 2 * 255 + 1 + 1 + (2 - s.dmaCounter) by omega, Function.iterate_add_apply,
    dmaStep_iterate_idle hc, Function.iterate_succ_apply', Function.iterate_succ_apply', e,
    dmaStep_copies h v (by omega), if_pos rfl, if_pos rfl, dmaCopied, hwrap]

/-- Settles O49: the start, the three kinds of DMA cycle, and the transfer as the idle cycles followed by 256 pairs of
a read and a write. -/
theorem oamDmaCopiesPage : Obligations.OamDmaCopiesPage := by
  refine ⟨fun s x => ?_, fun s k => ⟨dmaStep_idle, dmaStep_read, dmaStep_write⟩, fun s hdma hc hwf h => ?_⟩
  · exact congrArg (fun n => { s with inDma := true, dmaPage := x, dmaCounter := n }) (startDma_counter s)
  · obtain ⟨value, e⟩ := dmaStep_iterate_transfer hc h
    refine ⟨_, value, e, fun k => read_oamCopied hwf _ _ k 256 k.isLt (le_refl _), fun n hn => ?_⟩
    exact (dmaStep_iterate_inProgress s n (by omega)).2.trans hdma

/-! The controller ports. -/

theorem bit0_number {n : Nat} (x : BitVec n) : x.getLsbD 0 = decide (x.toNat % 2 = 1) := by
  rw [getLsbD_number, Nat.pow_zero, Nat.div_one]

/-- The bits of a port's register after `k` reads: the register moved down, ones from above (R346). -/
theorem Port.shift_iterate_bit (p : Port) (k : Nat) : ∀ j, j < 8 →
    (Port.shift^[k] p).latched.getLsbD j = if k + j < 8 then p.latched.getLsbD (k + j) else true := by
  induction k with
  | zero =>
    intro j hj
    rw [Nat.zero_add, if_pos hj]
    rfl
  | succ k ih =>
    intro j hj
    have hshift : (Port.shift^[k + 1] p).latched.getLsbD j =
        ((Port.shift^[k] p).latched.getLsbD (j + 1) || decide (j = 7)) := by
      rw [Function.iterate_succ_apply', Port.shift, BitVec.getLsbD_or, BitVec.getLsbD_ushiftRight, Nat.add_comm 1 j]
      congr 1
      interval_cases j <;> rfl
    rw [hshift, show k + 1 + j = k + (j + 1) by omega]
    by_cases h7 : j = 7
    · rw [if_neg (by omega), decide_eq_true h7, Bool.or_true]
    · rw [ih (j + 1) (by omega), decide_eq_false h7, Bool.or_false]

/-- What a port returns, as a number (R346). -/
theorem Port.peek_number (p : Port) : p.peek.toNat = 64 + carryNat (p.latched.getLsbD 0) := by
  have h : ∀ x : Byte, ((x &&& 0x01#8) ||| 0x40#8).toNat = 64 + carryNat (x.getLsbD 0) := by decide
  exact h p.latched

/-- The next read of a port that was read `k` times. -/
theorem Port.peek_shift_iterate (p : Port) (k : Nat) :
    (Port.shift^[k] p).peek.toNat = 64 + (if k < 8 then p.latched.toNat / 2 ^ k % 2 else 1) := by
  rw [Port.peek_number, p.shift_iterate_bit k 0 (by decide), Nat.add_zero, getLsbD_number]
  by_cases hk : k < 8
  · rw [if_pos hk, if_pos hk]
    rcases Nat.mod_two_eq_zero_or_one (p.latched.toNat / 2 ^ k) with e | e <;> rw [e] <;> rfl
  · rw [if_neg hk, if_neg hk]
    rfl

theorem afterRead_port1_iterate (s : State) (k : Nat) :
    (fun u => afterRead u 0x4016#16)^[k] s = { s with port1 := Port.shift^[k] s.port1 } := by
  induction k with
  | zero => rfl
  | succ k ih =>
    rw [Function.iterate_succ_apply', Function.iterate_succ_apply', ih]
    rfl

theorem afterRead_port2_iterate (s : State) (k : Nat) :
    (fun u => afterRead u 0x4017#16)^[k] s = { s with port2 := Port.shift^[k] s.port2 } := by
  induction k with
  | zero => rfl
  | succ k ih =>
    rw [Function.iterate_succ_apply', Function.iterate_succ_apply', ih]
    rfl

/-- Latching while the strobe is 1 (R347). -/
theorem Port.latch_latched (strobe : Bool) (p : Port) :
    (p.latch strobe).latched = if strobe then p.current else p.latched := by
  cases strobe <;> rfl

/-- Settles O50: a read returns bit 0 of a register that every read shifts by one, ones coming in from above. -/
theorem controllersShiftOutEightButtons : Obligations.ControllersShiftOutEightButtons := by
  refine ⟨fun s k => ⟨?_, ?_⟩, fun s x => ⟨Port.latch_latched _ _, Port.latch_latched _ _, ?_⟩⟩
  · rw [afterRead_port1_iterate]
    exact Port.peek_shift_iterate s.port1 k
  · rw [afterRead_port2_iterate]
    exact Port.peek_shift_iterate s.port2 k
  · show { s with strobe := x.getLsbD 0 } = _
    rw [bit0_number]

end Sys2Proof.Machine
end

section
/-! PROOFS. The picture unit (spec/62_ppu.md): its registers at every mirror, the data port and the palette, the scroll
increments, and what each dot of a frame does. -/

namespace Sys2Proof.Machine

/-! The registers. -/

/-- The status byte as a number (R389). -/
theorem Ppu.status_number (p : Ppu) :
    p.status.toNat = 128 * carryNat p.vblank + 64 * carryNat p.spriteZeroHit + 32 * carryNat p.spriteOverflow := by
  unfold Ppu.status
  cases p.vblank <;> cases p.spriteZeroHit <;> cases p.spriteOverflow <;> rfl

theorem byte_high3 (x : Byte) : x.extractLsb' 5 3 = BitVec.ofNat 3 (x.toNat / 32) := by revert x; decide

theorem byte_low3 (x : Byte) : x.extractLsb' 0 3 = BitVec.ofNat 3 x.toNat := by revert x; decide

/-- Settles O43: registers 2, 0 and 1 at every mirror. -/
theorem statusAndControlRegisters : Obligations.StatusAndControlRegisters := by
  intro s a x h1 h2
  refine ⟨fun hr => ?_, fun hr => ?_, fun hr => ?_⟩
  · rw [busPeek_window h1 h2, ppuRegister_eq hr]
    exact s.ppu.status_number
  · rw [busWrite_window h1 h2, ppuRegister_eq hr, ← writeCtrl_t_number]
    rfl
  · rw [busWrite_window h1 h2, ppuRegister_eq hr, ← byte_high3]
    rfl

/-- The first write to register 5 (R392). -/
theorem Ppu.writeScroll_first {p : Ppu} (h : p.w = false) (x : Byte) :
    p.writeScroll x =
      { p with
        t := BitVec.ofNat 15 (p.t.toNat / 32 * 32 + x.toNat / 8)
        fineX := BitVec.ofNat 3 x.toNat, w := true } := by
  rw [Ppu.writeScroll, h, if_neg Bool.false_ne_true, writeScroll_x_number, byte_low3]

/-- The second write to register 5 (R392). -/
theorem Ppu.writeScroll_second {p : Ppu} (h : p.w = true) (x : Byte) :
    p.writeScroll x =
      { p with
        t := BitVec.ofNat 15
          (x.toNat % 8 * 4096 + p.t.toNat / 1024 % 4 * 1024 + x.toNat / 8 * 32 + p.t.toNat % 32)
        w := false } := by
  rw [Ppu.writeScroll, h, if_pos rfl, writeScroll_y_number]

/-- The first write to register 6 (R393). -/
theorem Ppu.writeAddr_first {p : Ppu} (h : p.w = false) (x : Byte) :
    p.writeAddr x = { p with t := BitVec.ofNat 15 (x.toNat % 64 * 256 + p.t.toNat % 256), w := true } := by
  rw [Ppu.writeAddr, h, if_neg Bool.false_ne_true, writeAddr_high_number]

/-- The second write to register 6 (R393). -/
theorem Ppu.writeAddr_second {p : Ppu} (h : p.w = true) (x : Byte) :
    p.writeAddr x =
      { p with
        t := BitVec.ofNat 15 (p.t.toNat / 256 * 256 + x.toNat)
        v := BitVec.ofNat 15 (p.t.toNat / 256 * 256 + x.toNat), w := false } := by
  rw [Ppu.writeAddr, h, if_pos rfl, writeAddr_low_number]

/-- Settles O44: registers 3 to 6 at every mirror, 5 and 6 by the toggle. -/
theorem scrollAndAddressRegisters : Obligations.ScrollAndAddressRegisters := by
  intro s a x h1 h2
  have hwrite : ∀ k, a.toNat % 8 = k → busWrite s a x = s.withPic (s.pic.writeReg (BitVec.ofNat 3 k) x) :=
    fun k hr => by rw [busWrite_window h1 h2, ppuRegister_eq hr]
  refine ⟨hwrite 3, fun hr => ⟨?_, hwrite 4 hr⟩, fun hr hw => ?_, fun hr hw => ?_, fun hr hw => ?_,
    fun hr hw => ?_⟩
  · rw [busPeek_window h1 h2, ppuRegister_eq hr]
    rfl
  · rw [hwrite 5 hr, ← Ppu.writeScroll_first hw]
    rfl
  · rw [hwrite 5 hr, ← Ppu.writeScroll_second hw]
    rfl
  · rw [hwrite 6 hr, ← Ppu.writeAddr_first hw]
    rfl
  · rw [hwrite 6 hr, ← Ppu.writeAddr_second hw]
    rfl

/-! The data port and the palette. -/

/-- The picture-bus address is the low 14 bits of `v` (R394). -/
theorem Ppu.busAddr_toNat (p : Ppu) : p.busAddr.toNat = p.v.toNat % 0x4000 := by
  simp [Ppu.busAddr, BitVec.extractLsb'_toNat]

/-- The address after an access to the data port (R394). -/
theorem Ppu.advance_v (p : Ppu) :
    p.advance.v =
      if p.renderingLine then incX (incY p.v) else BitVec.ofNat 15 (p.v.toNat + if p.incr32 then 32 else 1) := by
  have hplain : p.v + p.vramIncrement = BitVec.ofNat 15 (p.v.toNat + if p.incr32 then 32 else 1) := by
    unfold Ppu.vramIncrement
    apply BitVec.eq_of_toNat_eq
    cases p.incr32 <;> simp [BitVec.toNat_add]
  rw [p.advance_eq, hplain]

/-- A write to the data port: to the palette from 0x3F00 on, below it to the picture bus (R394). -/
theorem Pic.writeData_palette {q : Pic} (h : 0x3F00 ≤ q.ppu.busAddr.toNat) (x : Byte) :
    q.writeData x = { q with ppu := q.ppu.advance.paletteWrite q.ppu.busAddr x } := if_pos h

theorem Pic.writeData_bus {q : Pic} (h : q.ppu.busAddr.toNat < 0x3F00) (x : Byte) :
    q.writeData x = { q with ppu := q.ppu.advance, cart := picWrite q.cart q.ppu.busAddr x } :=
  if_neg (Nat.not_le.mpr h)

theorem busWrite_data {s : State} {a : Word} (h1 : 0x2000 ≤ a.toNat) (h2 : a.toNat < 0x4000) (h7 : a.toNat % 8 = 7)
    (x : Byte) : busWrite s a x = s.withPic (s.pic.writeData x) := by
  rw [busWrite_window h1 h2, ppuRegister_eq h7]
  rfl

/-- The cell of a palette address (R395). -/
theorem palIndex_mirrors (a : BitVec 14) :
    palIndex a =
      if a.toNat % 32 = 16 ∨ a.toNat % 32 = 20 ∨ a.toNat % 32 = 24 ∨ a.toNat % 32 = 28 then a.toNat % 32 - 16
      else a.toNat % 32 := by
  unfold palIndex
  dsimp only
  have hcells : (0x10 ≤ a.toNat % 0x20 ∧ a.toNat % 0x20 % 4 = 0) ↔
      (a.toNat % 32 = 16 ∨ a.toNat % 32 = 20 ∨ a.toNat % 32 = 24 ∨ a.toNat % 32 = 28) := by omega
  simp only [hcells]

/-- A palette write is read back at every mirror of its cell, masked by greyscale (R395). -/
theorem Ppu.paletteRead_paletteWrite {p : Ppu} (h : Memory.wf p.palette = true) (a b : BitVec 14) (x : Byte) :
    (p.paletteWrite a x).paletteRead b =
      if palIndex b = palIndex a then (if p.greyscale then x &&& 0x30#8 else x) else p.paletteRead b := by
  simp only [Ppu.paletteRead, Ppu.paletteWrite, Memory.read_write _ _ _ h]
  split_ifs <;> rfl

/-- Settles O45: the data port, read and written, and the palette. -/
theorem dataPortAndPalette : Obligations.DataPortAndPalette := by
  refine ⟨fun s a h1 h2 h7 => ?_, palIndex_mirrors, fun p a b x h => Ppu.paletteRead_paletteWrite h a b x⟩
  dsimp only
  rw [← Ppu.advance_v, ← s.ppu.busAddr_toNat, BitVec.ofNat_toNat, BitVec.setWidth_eq, afterRead_data h1 h2 h7]
  refine ⟨?_, rfl, rfl, fun x => ?_⟩
  · rw [busPeek_window h1 h2, ppuRegister_eq h7]
    rfl
  · rw [busWrite_data h1 h2 h7]
    by_cases h : 0x3F00 ≤ s.ppu.busAddr.toNat
    · rw [Pic.writeData_palette (q := s.pic) h]
      refine ⟨rfl, fun _ => ⟨rfl, ?_⟩, fun hlt => absurd h (Nat.not_le.mpr hlt)⟩
      show Memory.write s.ppu.advance.palette _ x = _
      rw [Ppu.advance_eq]
      rfl
    · rw [Pic.writeData_bus (q := s.pic) (Nat.not_le.mp h)]
      refine ⟨rfl, fun hle => absurd hle h, fun _ => ⟨?_, rfl⟩⟩
      show s.ppu.advance.palette = _
      rw [Ppu.advance_eq]

/-! The scroll increments. -/

/-- The number of a scroll register by its fields: fine Y, the vertical and the horizontal nametable bit, coarse Y and
coarse X (R380). -/
def scrollNumber (fineY ntY ntX coarseY coarseX : Nat) : Nat :=
  4096 * fineY + 2048 * ntY + 1024 * ntX + 32 * coarseY + coarseX

section Fields

variable {f b a c x : Nat}

/-- The fields of a number given by its fields. -/
theorem scrollNumber_fields (hb : b < 2) (ha : a < 2) (hc : c < 32) (hx : x < 32) :
    scrollNumber f b a c x % 32 = x ∧ scrollNumber f b a c x / 32 % 32 = c ∧
      scrollNumber f b a c x / 1024 % 2 = a ∧ scrollNumber f b a c x / 2048 % 2 = b ∧
      scrollNumber f b a c x / 2048 = 2 * f + b ∧ scrollNumber f b a c x / 4096 = f := by
  unfold scrollNumber
  refine ⟨?_, ?_, ?_, ?_, ?_, ?_⟩ <;> omega

theorem scrollNumber_of_fields (n : Nat) :
    n = scrollNumber (n / 4096) (n / 2048 % 2) (n / 1024 % 2) (n / 32 % 32) (n % 32) := by
  unfold scrollNumber
  omega

/-- Coarse X wraps from 31 and toggles the horizontal nametable bit; else it goes up by one (R384). -/
theorem incX_number {v : BitVec 15} (hv : v.toNat = scrollNumber f b a c x) (hb : b < 2) (ha : a < 2) (hc : c < 32)
    (hx : x < 32) : (incX v).toNat = scrollNumber f b (if x = 31 then 1 - a else a) c ((x + 1) % 32) := by
  have hlt := v.isLt
  obtain ⟨ex, -⟩ := scrollNumber_fields (f := f) hb ha hc hx
  have hcond : v.extractLsb' 0 5 = 31#5 ↔ x = 31 := by
    rw [← BitVec.toNat_inj, coarseX_number, hv, ex]
    rfl
  unfold incX
  simp only [hcond]
  split
  · have hclear : (v &&& 0x7FE0#15).toNat = scrollNumber f b a c 0 := by
      rw [clearCoarseX_number, hv]
      unfold scrollNumber
      omega
    obtain ⟨-, -, ea, -⟩ := scrollNumber_fields (f := f) hb ha hc (x := 0) (by decide)
    rw [flipNtX_number, hclear, ea]
    unfold scrollNumber
    split <;> omega
  · rw [BitVec.toNat_add, show (1#15 : BitVec 15).toNat = 1 from rfl,
      Nat.mod_eq_of_lt (by unfold scrollNumber at hv; omega), Nat.mod_eq_of_lt (by omega), hv]
    rfl

/-- Coarse Y set to 0. -/
theorem clearCoarseY_fields {v : BitVec 15} (hv : v.toNat = scrollNumber f b a c x) (hc : c < 32)
    (hx : x < 32) : (v &&& 0x7C1F#15).toNat = scrollNumber f b a 0 x := by
  rw [clearCoarseY_number, hv]
  unfold scrollNumber
  omega

/-- Coarse Y set to another row. -/
theorem setCoarseY_fields {v : BitVec 15} (hv : v.toNat = scrollNumber f b a c x) (hc : c < 32)
    (hx : x < 32) (row : BitVec 5) :
    ((v &&& 0x7C1F#15) ||| (row.setWidth 15 <<< 5)).toNat = scrollNumber f b a row.toNat x := by
  rw [setCoarseY_number, hv]
  unfold scrollNumber
  omega

/-- Fine Y goes up by one; where it wraps, coarse Y goes from 29 to 0 with a toggle of the vertical nametable bit, from
31 to 0 without, else up by one (R385). -/
theorem incY_number {v : BitVec 15} (hv : v.toNat = scrollNumber f b a c x) (hf : f < 8) (hb : b < 2) (ha : a < 2)
    (hc : c < 32) (hx : x < 32) :
    (incY v).toNat =
      scrollNumber ((f + 1) % 8) (if f = 7 ∧ c = 29 then 1 - b else b) a
        (if f = 7 then (if c = 29 ∨ c = 31 then 0 else c + 1) else c) x := by
  obtain ⟨-, -, -, -, -, ef⟩ := scrollNumber_fields (f := f) hb ha hc hx
  have hfine : v.extractLsb' 12 3 ≠ 7#3 ↔ f ≠ 7 := by
    rw [ne_eq, ← BitVec.toNat_inj, fineY_number, hv, ef]
    rfl
  have hclear : (v &&& 0x0FFF#15).toNat = scrollNumber 0 b a c x := by
    rw [clearFineY_number, hv]
    unfold scrollNumber
    omega
  obtain ⟨-, ec, -, eb, -⟩ := scrollNumber_fields (f := 0) hb ha hc hx
  have hrow : ((v &&& 0x0FFF#15).extractLsb' 5 5).toNat = c := by rw [coarseY_number, hclear, ec]
  have hcoarse : ∀ k : BitVec 5, (v &&& 0x0FFF#15).extractLsb' 5 5 = k ↔ c = k.toNat := by
    intro k
    rw [← BitVec.toNat_inj, hrow]
  have h29 : (29#5 : BitVec 5).toNat = 29 := rfl
  have h31 : (31#5 : BitVec 5).toNat = 31 := rfl
  unfold incY
  simp only [hfine, hcoarse, h29, h31]
  by_cases h7 : f = 7
  · subst h7
    simp only [true_and, if_true, ne_eq, not_true_eq_false, if_false]
    by_cases hc29 : c = 29
    · have hflip : ((v &&& 0x0FFF#15) ^^^ 0x0800#15).toNat = scrollNumber 0 (1 - b) a c x := by
        rw [flipNtY_number, hclear, eb]
        unfold scrollNumber
        split <;> omega
      rw [if_pos hc29, if_pos hc29, if_pos (.inl hc29)]
      exact clearCoarseY_fields hflip hc hx
    · rw [if_neg hc29, if_neg hc29]
      by_cases hc31 : c = 31
      · rw [if_pos hc31, if_pos (.inr hc31)]
        exact clearCoarseY_fields hclear hc hx
      · rw [if_neg hc31, if_neg (not_or.mpr ⟨hc29, hc31⟩), setCoarseY_fields hclear hc hx, BitVec.toNat_add, hrow]
        congr 1
        exact Nat.mod_eq_of_lt (show c + 1 < 32 by omega)
  · rw [if_pos h7, if_neg fun e => h7 e.1, if_neg h7, BitVec.toNat_add, hv,
      Nat.mod_eq_of_lt (show f + 1 < 8 by omega)]
    unfold scrollNumber
    show _ % 2 ^ 15 = _
    rw [show (0x1000#15 : BitVec 15).toNat = 4096 from rfl]
    omega

end Fields

/-- Settles O46: the fields of the two numbers. -/
theorem scrollIncrements : Obligations.ScrollIncrements := by
  intro v
  obtain ⟨f, b, a, c, x, hf, hb, ha, hc, hx, e⟩ :
      ∃ f b a c x, f < 8 ∧ b < 2 ∧ a < 2 ∧ c < 32 ∧ x < 32 ∧ v.toNat = scrollNumber f b a c x :=
    ⟨v.toNat / 4096, v.toNat / 2048 % 2, v.toNat / 1024 % 2, v.toNat / 32 % 32, v.toNat % 32,
      Nat.div_lt_of_lt_mul v.isLt, Nat.mod_lt _ (by decide), Nat.mod_lt _ (by decide),
      Nat.mod_lt _ (by decide), Nat.mod_lt _ (by decide), scrollNumber_of_fields _⟩
  dsimp only
  rw [incX_number e hb ha hc hx, incY_number e hf hb ha hc hx, e]
  have hflip : ∀ (p : Prop) [Decidable p] (n : Nat), n < 2 → (if p then 1 - n else n) < 2 := by
    intro p _ n hn
    split <;> omega
  have hrow : (if f = 7 then (if c = 29 ∨ c = 31 then 0 else c + 1) else c) < 32 := by
    split_ifs <;> omega
  obtain ⟨n1, n2, n3, n4, n5, n6⟩ := scrollNumber_fields (f := f) hb ha hc hx
  obtain ⟨x1, x2, x3, -, x5, -⟩ :=
    scrollNumber_fields (f := f) hb (hflip (x = 31) a ha) hc (Nat.mod_lt (x + 1) (by decide))
  obtain ⟨y1, y2, y3, y4, -, y6⟩ := scrollNumber_fields (f := (f + 1) % 8) (hflip (f = 7 ∧ c = 29) b hb) ha hrow hx
  rw [n1, n2, n3, n4, n5, n6]
  exact ⟨x1, x2, x5, x3, y1, y3, y6, y2, y4⟩

/-! The dots of a frame. -/

/-- Advancing the position changes nothing but the position. -/
theorem Ppu.advancePosition_shape (p : Ppu) : ∃ d l, p.advancePosition = { p with dot := d, scanline := l } := by
  unfold Ppu.advancePosition
  split <;> exact ⟨_, _, rfl⟩

/-- The vertical blank, the NMI latch and the parity change where the vertical blank starts, and the first where it
ends (R411 to R414). -/
theorem Pic.dotWork_vblank (q : Pic) :
    let start := q.ppu.scanline = 241 ∧ q.ppu.dot = 1
    let clear := q.ppu.scanline = 261 ∧ q.ppu.dot = 1
    (q.dotWork.ppu.vblank = if start then true else if clear then false else q.ppu.vblank) ∧
      (q.dotWork.nmiPending = if start then q.nmiPending || q.ppu.nmiEnable else q.nmiPending) ∧
      (q.dotWork.ppu.oddFrame =
        if start then (if q.ppu.rendering then !q.ppu.oddFrame else false) else q.ppu.oddFrame) := by
  intro start clear
  by_cases h1 : start
  · rw [q.dotWork_start h1, if_pos h1, if_pos h1, if_pos h1]
    exact ⟨rfl, rfl, rfl⟩
  · rw [if_neg h1, if_neg h1, if_neg h1]
    by_cases h2 : clear
    · rw [q.dotWork_clear h2, if_pos h2]
      exact ⟨rfl, rfl, rfl⟩
    · rw [if_neg h2]
      have h := q.dotWork_keeps h1 h2
      exact ⟨h.vblank, h.nmiPending, h.oddFrame⟩

/-- On the pre-render line only dot 1 touches the sprite flags (R414). -/
theorem Pic.preRenderDot_spriteFlags (q : Pic) (h : q.ppu.dot ≠ 1) :
    q.preRenderDot.ppu.spriteZeroHit = q.ppu.spriteZeroHit ∧
      q.preRenderDot.ppu.spriteOverflow = q.ppu.spriteOverflow := by
  unfold Pic.preRenderDot
  dsimp only
  rw [if_neg h]
  split_ifs <;> exact ⟨rfl, rfl⟩

/-- Below the visible lines the sprite flags change only where the vertical blank ends (R405, R408, R414). -/
theorem Pic.dotWork_spriteFlags_below (q : Pic) (hl : 240 ≤ q.ppu.scanline)
    (h : ¬ (q.ppu.scanline = 261 ∧ q.ppu.dot = 1)) :
    q.dotWork.ppu.spriteZeroHit = q.ppu.spriteZeroHit ∧ q.dotWork.ppu.spriteOverflow = q.ppu.spriteOverflow := by
  unfold Pic.dotWork
  rw [if_neg (Nat.not_lt.mpr hl)]
  split_ifs with h241 h1 h261
  · exact ⟨rfl, rfl⟩
  · exact ⟨rfl, rfl⟩
  · exact q.preRenderDot_spriteFlags fun h1 => h ⟨h261, h1⟩
  · exact ⟨rfl, rfl⟩

/-- A raised sprite flag stays until the end of the vertical blank. -/
theorem Pic.dotWork_spriteFlags_stay (q : Pic) (h : ¬ (q.ppu.scanline = 261 ∧ q.ppu.dot = 1)) :
    (q.ppu.spriteZeroHit = true → q.dotWork.ppu.spriteZeroHit = true) ∧
      (q.ppu.spriteOverflow = true → q.dotWork.ppu.spriteOverflow = true) := by
  by_cases h1 : q.ppu.scanline = 241 ∧ q.ppu.dot = 1
  · rw [q.dotWork_start h1]
    exact ⟨id, id⟩
  · have hk := q.dotWork_keeps h1 h
    exact ⟨hk.spriteZeroHit, hk.spriteOverflow⟩

theorem Ppu.rendering_eq_false (p : Ppu) : p.rendering = false ↔ p.bgEnable = false ∧ p.sprEnable = false := by
  simp [Ppu.rendering]

theorem Ppu.busAddr_eq_ofNat (p : Ppu) : p.busAddr = BitVec.ofNat 14 p.v.toNat := by
  apply BitVec.eq_of_toNat_eq
  rw [p.busAddr_toNat, BitVec.toNat_ofNat]

/-- A step of the picture unit touches the frame buffer only to produce a pixel. -/
theorem ppuStep_frameBuffer (s : State) :
    (ppuStep s).ppu.frameBuffer =
      if s.ppu.scanline < 240 ∧ s.ppu.dot < 256 then s.ppu.produceDot.frameBuffer else s.ppu.frameBuffer := by
  obtain ⟨d, l, h⟩ := s.pic.dotWork.ppu.advancePosition_shape
  exact (congrArg Ppu.frameBuffer h).trans s.pic.dotWork_frameBuffer

/-- The pixel a visible dot produces is that of the colour of the dot, behind the emphasis bits (R404, R409). -/
theorem Ppu.produceDot_frameBuffer (p : Ppu) :
    p.produceDot.frameBuffer =
      Cells.write 0#9 p.frameBuffer (p.scanline * 256 + p.dot) (p.emphasis ++ (dotColour p).extractLsb' 0 6) := by
  unfold Ppu.produceDot dotColour
  dsimp only
  congr 3
  cases hr : p.rendering with
  | false =>
    rw [if_pos (p.rendering_eq_false.mp hr), ← p.busAddr_toNat, ← p.busAddr_eq_ofNat, apply_ite p.paletteRead]
    rfl
  | true =>
    rw [if_neg fun h => Bool.false_ne_true ((p.rendering_eq_false.mpr h).symm.trans hr)]
    cases p.spritePixel p.dot with
    | none =>
      by_cases hb : p.bgPixel p.dot = 0
      · simp [hb]
      · simp [hb]
    | some k =>
      by_cases hb : p.bgPixel p.dot = 0
      · simp [hb]
      · cases hk : k.behind <;> simp [hb, hk]

/-- A pixel as a number (R404, D36). -/
theorem pixel_number (e : BitVec 3) (c : Byte) :
    (e ++ c.extractLsb' 0 6 : BitVec 9).toNat = 64 * e.toNat + c.toNat % 64 := by
  have hc : (c.extractLsb' 0 6).toNat = c.toNat % 64 := by simp [BitVec.extractLsb'_toNat]
  rw [BitVec.toNat_append, ← Nat.shiftLeft_add_eq_or_of_lt (c.extractLsb' 0 6).isLt, hc, Nat.shiftLeft_eq,
    Nat.mul_comm]

/-- Settles O47: the dot's work and then the position, which nothing but the position depends on. -/
theorem dotsPixelsVblankAndNmi : Obligations.DotsPixelsVblankAndNmi := by
  intro s
  obtain ⟨d, l, hshape⟩ := s.pic.dotWork.ppu.advancePosition_shape
  have hppu : (ppuStep s).ppu = { s.pic.dotWork.ppu with dot := d, scanline := l } := hshape
  have hposition := ppuStep_position s
  dsimp only
  obtain ⟨hvblank, hnmi, hodd⟩ := s.pic.dotWork_vblank
  refine ⟨?_, hnmi, ?_, ?_, ?_, ?_, ?_, hposition, ?_, ?_⟩
  · rw [hppu]
    exact hvblank
  · rw [hppu]
    exact hodd
  · intro h
    rw [hppu, s.pic.dotWork_clear h]
    exact ⟨rfl, rfl⟩
  · intro hl h
    rw [hppu]
    exact s.pic.dotWork_spriteFlags_below hl h
  · intro hf h
    rw [hppu]
    exact (s.pic.dotWork_spriteFlags_stay h).1 hf
  · intro hf h
    rw [hppu]
    exact (s.pic.dotWork_spriteFlags_stay h).2 hf
  · intro h hwf k
    rw [ppuStep_frameBuffer, if_pos h, Ppu.produceDot_frameBuffer, Cells.read_write _ _ _ hwf, apply_ite BitVec.toNat,
      pixel_number]
  · intro h
    rw [ppuStep_frameBuffer, if_neg (by omega)]

end Sys2Proof.Machine
end

section
/-! PROOFS. The audio unit (spec/63_apu.md): its registers, the frame interrupt, and the laws of the channels. -/

namespace Sys2Proof.Machine

/-! The status byte and the enables. -/

theorem carryNat_ne_zero (n k : Nat) : k * carryNat (n != 0) = if n = 0 then 0 else k := by
  by_cases h : n = 0 <;> simp [h, carryNat]

/-- The status byte as a number (R501). -/
theorem Apu.status_number (u : Apu) :
    u.status.toNat =
      (if u.p1.length = 0 then 0 else 1) + (if u.p2.length = 0 then 0 else 2) +
        (if u.tri.length = 0 then 0 else 4) + (if u.noise.length = 0 then 0 else 8) +
        (if u.dmc.bytesLeft = 0 then 0 else 16) + 64 * carryNat u.frameIrq + 128 * carryNat u.dmcIrq := by
  have bits : ∀ b0 b1 b2 b3 b4 b6 b7 : Bool,
      ((if b0 then 0x01#8 else 0#8) ||| (if b1 then 0x02#8 else 0#8) ||| (if b2 then 0x04#8 else 0#8) |||
        (if b3 then 0x08#8 else 0#8) ||| (if b4 then 0x10#8 else 0#8) ||| (if b6 then 0x40#8 else 0#8) |||
        (if b7 then 0x80#8 else 0#8) : Byte).toNat =
      1 * carryNat b0 + 2 * carryNat b1 + 4 * carryNat b2 + 8 * carryNat b3 + 16 * carryNat b4 +
        64 * carryNat b6 + 128 * carryNat b7 := by decide
  have h := bits (u.p1.length != 0) (u.p2.length != 0) (u.tri.length != 0) (u.noise.length != 0)
    (u.dmc.bytesLeft != 0) u.frameIrq u.dmcIrq
  simp only [carryNat_ne_zero] at h
  exact h

/-- A value a bit of the byte written keeps, else 0. -/
theorem keptByBit (x : Byte) (k n : Nat) :
    (if x.getLsbD k then n else 0) = if x.toNat / 2 ^ k % 2 = 1 then n else 0 := by
  simp only [getLsbD_number, decide_eq_true_eq]

/-- The DMC after a write to 0x4015: started at its sample where it had ended, or stopped (R500). -/
theorem Apu.writeEnable_dmc (u : Apu) (x : Byte) :
    (u.writeEnable x).dmc =
      { u.dmc with
        bytesLeft :=
          if x.toNat / 2 ^ 4 % 2 = 1 then (if u.dmc.bytesLeft = 0 then u.dmc.sampleLength else u.dmc.bytesLeft) else 0
        address := if 16 ≤ x.toNat % 32 ∧ u.dmc.bytesLeft = 0 then u.dmc.sampleAddress else u.dmc.address } := by
  obtain ⟨-, -, -, -, -, -, hbit, -⟩ := audioFields x
  rw [← keptByBit]
  unfold Apu.writeEnable
  dsimp only
  cases hb : x.getLsbD 4 with
  | false =>
    have hlt : ¬ 16 ≤ x.toNat % 32 := of_decide_eq_false (hbit ▸ hb)
    simp [hlt]
  | true =>
    have hle : 16 ≤ x.toNat % 32 := of_decide_eq_true (hbit ▸ hb)
    by_cases h0 : u.dmc.bytesLeft = 0 <;> simp [hle, h0]

/-! The frame register. -/

/-- A sweep leaves the length counter alone (R463). -/
theorem Pulse.clockSweep_length (first : Bool) (p : Pulse) : (Pulse.clockSweep first p).length = p.length := by
  unfold Pulse.clockSweep
  dsimp only
  split_ifs <;> rfl

theorem clockLength_eq (halt : Bool) (n : Nat) : clockLength halt n = if !halt then n - 1 else n := by
  unfold clockLength
  cases halt with
  | true => rfl
  | false => by_cases h : n = 0 <;> simp [h]

/-- A half-frame clock takes one from every length counter that is not halted (R463). -/
theorem Apu.clockHalf_lengths (u : Apu) :
    u.clockHalf.p1.length = (if !u.p1.env.halt then u.p1.length - 1 else u.p1.length) ∧
      u.clockHalf.p2.length = (if !u.p2.env.halt then u.p2.length - 1 else u.p2.length) ∧
      u.clockHalf.tri.length = (if !u.tri.halt then u.tri.length - 1 else u.tri.length) ∧
      u.clockHalf.noise.length = (if !u.noise.env.halt then u.noise.length - 1 else u.noise.length) := by
  refine ⟨?_, ?_, clockLength_eq _ _, clockLength_eq _ _⟩
  · exact (Pulse.clockSweep_length _ _).trans (clockLength_eq _ _)
  · exact (Pulse.clockSweep_length _ _).trans (clockLength_eq _ _)

/-- A quarter-frame clock changes no halt flag (R462). -/
theorem Envelope.clock_halt (e : Envelope) : e.clock.halt = e.halt := by
  unfold Envelope.clock
  split_ifs <;> rfl

/-- The length counters after a write to 0x4017: in 5-step mode they are clocked at once (R461). -/
theorem Apu.writeFrame_lengths (u : Apu) (x : Byte) :
    (u.writeFrame x).p1.length = (if x.getLsbD 7 && !u.p1.env.halt then u.p1.length - 1 else u.p1.length) ∧
      (u.writeFrame x).p2.length = (if x.getLsbD 7 && !u.p2.env.halt then u.p2.length - 1 else u.p2.length) ∧
      (u.writeFrame x).tri.length = (if x.getLsbD 7 && !u.tri.halt then u.tri.length - 1 else u.tri.length) ∧
      (u.writeFrame x).noise.length =
        (if x.getLsbD 7 && !u.noise.env.halt then u.noise.length - 1 else u.noise.length) := by
  unfold Apu.writeFrame
  cases x.getLsbD 7 with
  | false => exact ⟨rfl, rfl, rfl, rfl⟩
  | true =>
    simp only [if_true, Bool.true_and]
    obtain ⟨h1, h2, ht, hn⟩ := Apu.clockHalf_lengths (Apu.clockQuarter
      { u with
        step5Mode := true, irqInhibit := x.getLsbD 6, frameIrq := u.frameIrq && !x.getLsbD 6, frameCounter := 0 })
    refine ⟨h1.trans ?_, h2.trans ?_, ht, hn.trans ?_⟩
    · exact congrArg (fun b : Bool => if !b then u.p1.length - 1 else u.p1.length) u.p1.env.clock_halt
    · exact congrArg (fun b : Bool => if !b then u.p2.length - 1 else u.p2.length) u.p2.env.clock_halt
    · exact congrArg (fun b : Bool => if !b then u.noise.length - 1 else u.noise.length) u.noise.env.clock_halt

/-- The sequencer after a write to 0x4017 (R461). -/
theorem Apu.writeFrame_sequencer (u : Apu) (x : Byte) :
    (u.writeFrame x).frameCounter = 0 ∧ (u.writeFrame x).step5Mode = x.getLsbD 7 ∧
      (u.writeFrame x).irqInhibit = x.getLsbD 6 ∧ (u.writeFrame x).frameIrq = (u.frameIrq && !x.getLsbD 6) ∧
      (u.writeFrame x).dmcIrq = u.dmcIrq := by
  unfold Apu.writeFrame
  dsimp only
  split <;> exact ⟨rfl, rfl, rfl, rfl, rfl⟩

/-! The channel registers: the writes of R470, R480, R485 and R490 through the bus. -/

section ChannelRegisters

variable (s : State) (x : Byte) {r : Nat}

theorem busWrite_pulse1 (h : r < 4) :
    busWrite s (BitVec.ofNat 16 (0x4000 + r)) x =
      { s with apu := { s.apu with p1 := pulseLaw true r x s.apu.p1 } } := by
  rw [← pulse_write_eq _ _ _ h]
  interval_cases r <;> rfl

theorem busWrite_pulse2 (h : r < 4) :
    busWrite s (BitVec.ofNat 16 (0x4004 + r)) x =
      { s with apu := { s.apu with p2 := pulseLaw false r x s.apu.p2 } } := by
  rw [← pulse_write_eq _ _ _ h]
  interval_cases r <;> rfl

theorem busWrite_triangle (h : r < 4) :
    busWrite s (BitVec.ofNat 16 (0x4008 + r)) x =
      { s with apu := { s.apu with tri := triangleLaw r x s.apu.tri } } := by
  rw [← triangle_write_eq _ _ h]
  interval_cases r <;> rfl

theorem busWrite_noise (h : r < 4) :
    busWrite s (BitVec.ofNat 16 (0x400C + r)) x =
      { s with apu := { s.apu with noise := noiseLaw r x s.apu.noise } } := by
  rw [← noise_write_eq _ _ h]
  interval_cases r <;> rfl

theorem busWrite_dmc (h : r < 4) :
    busWrite s (BitVec.ofNat 16 (0x4010 + r)) x =
      { s with apu := { s.apu with
          dmc := dmcLaw r x s.apu.dmc
          dmcIrq := if r = 0 ∧ x.toNat < 128 then false else s.apu.dmcIrq } } := by
  have hirq : (s.apu.dmcIrq && !(BitVec.ofNat 2 r == 0#2 && !x.getLsbD 7)) =
      if r = 0 ∧ x.toNat < 128 then false else s.apu.dmcIrq := by
    have hr : (BitVec.ofNat 2 r == 0#2) = decide (r = 0) := by interval_cases r <;> rfl
    rw [hr, byte_bit7]
    by_cases h0 : r = 0
    · by_cases hx : 128 ≤ x.toNat
      · simp [hx, Nat.not_lt.mpr hx]
      · simp [h0, hx, Nat.not_le.mp hx]
    · simp [h0]
  rw [← dmc_write_eq _ _ h, ← hirq]
  interval_cases r <;> rfl

end ChannelRegisters

/-- Settles O51: the status byte, the enables, the frame register and the registers of the five channels. -/
theorem audioStatusAndEnable : Obligations.AudioStatusAndEnable := by
  intro s x
  obtain ⟨hcounter, hmode, hinhibit, hirq, hdmcIrq⟩ := s.apu.writeFrame_sequencer x
  obtain ⟨h1, h2, ht, hn⟩ := s.apu.writeFrame_lengths x
  exact ⟨s.apu.status_number, keptByBit x 0 _, keptByBit x 1 _, keptByBit x 2 _, keptByBit x 3 _, rfl,
    s.apu.writeEnable_dmc x, rfl, rfl, hcounter, hmode, hinhibit, hirq, hdmcIrq, h1, h2, ht, hn, fun r hr =>
      ⟨busWrite_pulse1 s x hr, busWrite_pulse2 s x hr, busWrite_triangle s x hr, busWrite_noise s x hr,
        busWrite_dmc s x hr⟩⟩

/-! The frame interrupt. -/

/-- The events of the sequencer change neither its counter nor its mode. -/
theorem Apu.frameEvents_sequencer (u : Apu) :
    u.frameEvents.frameCounter = u.frameCounter ∧ u.frameEvents.step5Mode = u.step5Mode ∧
      u.frameEvents.irqInhibit = u.irqInhibit := by
  unfold Apu.frameEvents
  split_ifs <;> exact ⟨rfl, rfl, rfl⟩

/-- The interrupt is raised at 29829 in 4-step mode alone (R460). -/
theorem Apu.frameEvents_frameIrq (u : Apu) :
    u.frameEvents.frameIrq =
      if u.frameCounter = 29829 ∧ u.step5Mode = false then u.frameIrq || !u.irqInhibit else u.frameIrq := by
  unfold Apu.frameEvents
  by_cases h : u.frameCounter = 29829 ∧ u.step5Mode = false
  · obtain ⟨hc, -⟩ := id h
    rw [if_neg (by omega), if_neg (by omega), if_pos h, if_pos h]
    rfl
  · rw [if_neg h, if_neg h]
    split_ifs <;> rfl

/-- A step of the channels that does not wrap the counter counts one (R455). -/
theorem Apu.stepChannels_frameCounter {u : Apu} (h : u.frameCounter < 29830) :
    u.stepChannels.frameCounter = u.frameCounter + 1 := by
  have hcount : u.countFrame.frameCounter = u.frameCounter + 1 := by
    show (if (u.frameCounter = 29830 ∧ u.step5Mode = false) ∨ u.frameCounter = 37282 then 0 else u.frameCounter) + 1 = _
    rw [if_neg (by omega)]
  exact u.countFrame.frameEvents_sequencer.1.trans hcount

theorem Apu.stepChannels_mode (u : Apu) :
    u.stepChannels.step5Mode = u.step5Mode ∧ u.stepChannels.irqInhibit = u.irqInhibit :=
  u.countFrame.frameEvents_sequencer.2

theorem Apu.stepChannels_frameIrq (u : Apu) :
    u.stepChannels.frameIrq =
      if u.stepChannels.frameCounter = 29829 ∧ u.step5Mode = false then u.frameIrq || !u.irqInhibit
      else u.frameIrq := by
  have h := u.countFrame.frameEvents_frameIrq
  rw [← u.countFrame.frameEvents_sequencer.1] at h
  exact h

/-- Steps of the channels keep the mode. -/
theorem Apu.stepChannels_iterate_mode (u : Apu) (n : Nat) :
    (Apu.stepChannels^[n] u).step5Mode = u.step5Mode ∧ (Apu.stepChannels^[n] u).irqInhibit = u.irqInhibit := by
  induction n with
  | zero => exact ⟨rfl, rfl⟩
  | succ n ih =>
    rw [Function.iterate_succ_apply']
    obtain ⟨hmode, hinhibit⟩ := (Apu.stepChannels^[n] u).stepChannels_mode
    exact ⟨hmode.trans ih.1, hinhibit.trans ih.2⟩

/-- The counter counts the steps up to the end of the sequence. -/
theorem Apu.stepChannels_iterate_frameCounter {u : Apu} (h : u.frameCounter = 0) :
    ∀ n, n ≤ 29830 → (Apu.stepChannels^[n] u).frameCounter = n
  | 0, _ => h
  | n + 1, hn => by
    have ih := Apu.stepChannels_iterate_frameCounter h n (by omega)
    rw [Function.iterate_succ_apply', Apu.stepChannels_frameCounter (by omega), ih]

/-- Settles O52: the counter is the number of steps until the interrupt is raised, and no step clears it. -/
theorem frameInterruptAfterOneSequence : Obligations.FrameInterruptAfterOneSequence := by
  intro u n hcounter hirq
  refine ⟨fun hmode hinhibit => ?_, fun h => ?_⟩
  · induction n with
    | zero => exact hirq
    | succ n ih =>
      obtain ⟨emode, einhibit⟩ := u.stepChannels_iterate_mode n
      have hnext := (Apu.stepChannels^[n] u).stepChannels_frameIrq
      rw [← Function.iterate_succ_apply' Apu.stepChannels, emode, einhibit, hmode, hinhibit, ih] at hnext
      rw [hnext]
      by_cases hn : n + 1 ≤ 29829
      · rw [Apu.stepChannels_iterate_frameCounter hcounter (n + 1) (by omega)]
        by_cases he : n + 1 = 29829
        · simp [he]
        · rw [if_neg fun e => he e.1, decide_eq_decide]
          omega
      · have hset : decide (29829 ≤ n) = true := decide_eq_true (by omega)
        have hset' : decide (29829 ≤ n + 1) = true := decide_eq_true (by omega)
        rw [hset, hset', Bool.true_or, ite_self]
  · induction n with
    | zero => exact hirq
    | succ n ih =>
      obtain ⟨emode, einhibit⟩ := u.stepChannels_iterate_mode n
      rw [Function.iterate_succ_apply', Apu.stepChannels_frameIrq, emode, einhibit, ih]
      rcases h with h | h <;> simp [h]

/-! The laws of the channels. -/

/-- The sweep target (R465). -/
theorem Pulse.updateSweep_target (first : Bool) (p : Pulse) :
    (Pulse.updateSweep first p).sweepTarget =
      (p.timer.toNat : Int) +
        (if p.sweepNegate then -((p.timer.toNat : Int) / 2 ^ p.sweepShift.toNat) - (if first then 1 else 0)
         else (p.timer.toNat : Int) / 2 ^ p.sweepShift.toNat) := by
  have hshift : ((p.timer.toNat >>> p.sweepShift.toNat : Nat) : Int) =
      (p.timer.toNat : Int) / 2 ^ p.sweepShift.toNat := by
    rw [Nat.shiftRight_eq_div_pow]
    push_cast
    rfl
  unfold Pulse.updateSweep
  dsimp only
  rw [hshift]
  cases first <;> simp

theorem Pulse.updateSweep_muting (first : Bool) (p : Pulse) :
    (Pulse.updateSweep first p).sweepMuting = true ↔
      0x7FF < (Pulse.updateSweep first p).sweepTarget ∨ p.timer.toNat < 8 := by
  show (decide _ || decide _) = true ↔ _
  rw [Bool.or_eq_true, decide_eq_true_eq, decide_eq_true_eq]
  rfl

/-- A target that is used is at most 0x7FF where the channel is not muted, and not negative: half of a period of at
least 8, and one more, leaves something of it (R463, R465). -/
theorem Pulse.updateSweep_fits {first : Bool} {p : Pulse} (hm : (Pulse.updateSweep first p).sweepMuting = false)
    (hs : p.sweepShift ≠ 0#3) :
    0 ≤ (Pulse.updateSweep first p).sweepTarget ∧ (Pulse.updateSweep first p).sweepTarget ≤ 0x7FF := by
  obtain ⟨hle, hlt⟩ := not_or.mp (mt (p.updateSweep_muting first).mpr (Bool.eq_false_iff.mp hm))
  refine ⟨?_, not_lt.mp hle⟩
  have hk : p.sweepShift.toNat ≠ 0 := fun e => hs (BitVec.eq_of_toNat_eq e)
  have hhalf : (p.timer.toNat : Int) / 2 ^ p.sweepShift.toNat ≤ (p.timer.toNat : Int) / 2 := by
    have h2 : 2 ^ 1 ≤ 2 ^ p.sweepShift.toNat := Nat.pow_le_pow_right (by decide) (Nat.one_le_iff_ne_zero.mpr hk)
    exact_mod_cast Nat.div_le_div_left (a := p.timer.toNat) h2 Nat.two_pos
  have hpos : 0 ≤ (p.timer.toNat : Int) / 2 ^ p.sweepShift.toNat := by positivity
  rw [Pulse.updateSweep_target]
  split_ifs <;> omega

/-- What a pulse channel puts out after a cycle: its level, but 0 at a low step of the duty, muted, or with length 0
(R471). -/
theorem Pulse.step_output (p : Pulse) :
    ∃ bit, p.step.output = if !bit || p.sweepMuting || p.length == 0 then 0#4 else p.env.level := by
  unfold Pulse.step
  dsimp only
  split <;> exact ⟨_, rfl⟩

theorem Pulse.step_silent {p : Pulse} (h : p.length = 0 ∨ p.sweepMuting = true) : p.step.output = 0#4 := by
  obtain ⟨bit, e⟩ := p.step_output
  rw [e]
  rcases h with h | h <;> simp [h]

/-- And a noise channel: its level, but 0 with length 0 or where bit 0 of its register is 1 (R487). -/
theorem Noise.step_output (c : Noise) :
    ∃ bit, c.step.output = if c.length == 0 || bit then 0#4 else c.env.level := by
  unfold Noise.step
  dsimp only
  split <;> exact ⟨_, rfl⟩

theorem Noise.step_silent {c : Noise} (h : c.length = 0) : c.step.output = 0#4 := by
  obtain ⟨bit, e⟩ := c.step_output
  rw [e]
  simp [h]

/-- The DMC level as a number (R492). -/
theorem dmcLevel_number (bit : Bool) (level : BitVec 7) :
    (dmcLevel bit level).toNat =
      if bit then (if level.toNat + 2 ≤ 127 then level.toNat + 2 else level.toNat)
      else (if 2 ≤ level.toNat then level.toNat - 2 else level.toNat) := by
  revert bit level
  decide

/-- Settles O53: the sweep, the silent channels, the noise register and the DMC level. -/
theorem channelsStayInTheirLaws : Obligations.ChannelsStayInTheirLaws :=
  ⟨fun first p => ⟨p.updateSweep_target first, p.updateSweep_muting first, Pulse.updateSweep_fits, Pulse.step_silent⟩,
    fun _ => Noise.step_silent, fun tonal _ => shifted_ne tonal, dmcLevel_number⟩

end Sys2Proof.Machine
end

section
/-! PROOFS. The mappers (spec/64_mappers.md): the register writes of the six variants, the serial load of variant B and
the scanline counter of variant D. -/

namespace Sys2Proof.Machine

/-! Register writes. -/

/-- Variant D's registers by the 8 KB window and the parity of the address (R555). -/
theorem RegsD.write_law (r : RegsD) {a : Word} (h : 0x8000 ≤ a.toNat) (x : Byte) :
    r.write a x = registerLawD a x r := by
  obtain ⟨-, -, f3, -, -, -, -, -, f6, f7, -⟩ := audioFields x
  have ha := a.isLt
  unfold RegsD.write registerLawD
  rw [bit0_number, bit0_number, f3, f6, f7]
  rcases (by omega : a.toNat / 0x2000 = 4 ∨ a.toNat / 0x2000 = 5 ∨ a.toNat / 0x2000 = 6 ∨ a.toNat / 0x2000 = 7)
    with hw | hw | hw | hw
  · rw [if_pos (show a.toNat < 0xA000 by omega), hw]
    rcases Nat.mod_two_eq_zero_or_one a.toNat with hp | hp <;> rw [hp] <;> rfl
  · rw [if_neg (show ¬ a.toNat < 0xA000 by omega), if_pos (show a.toNat < 0xC000 by omega), hw]
    rcases Nat.mod_two_eq_zero_or_one a.toNat with hp | hp <;> rw [hp] <;> rfl
  · rw [if_neg (show ¬ a.toNat < 0xA000 by omega), if_neg (show ¬ a.toNat < 0xC000 by omega),
      if_pos (show a.toNat < 0xE000 by omega), hw]
    rcases Nat.mod_two_eq_zero_or_one a.toNat with hp | hp <;> rw [hp] <;> rfl
  · rw [if_neg (show ¬ a.toNat < 0xA000 by omega), if_neg (show ¬ a.toNat < 0xC000 by omega),
      if_neg (show ¬ a.toNat < 0xE000 by omega), hw]
    rcases Nat.mod_two_eq_zero_or_one a.toNat with hp | hp <;> rw [hp] <;> rfl

theorem MapperRegs.write_law (m : MapperRegs) {a : Word} (h : 0x8000 ≤ a.toNat) (x : Byte) :
    m.write a x = registerLaw a x m := by
  cases m with
  | variantD r => exact congrArg MapperRegs.variantD (r.write_law h x)
  | variantE b p =>
    obtain ⟨-, -, -, f4, -, -, hbit, -⟩ := audioFields x
    rw [MapperRegs.write, registerLaw, f4, hbit]
  | _ => rfl

/-- A write from 0x8000 on is one of the mapper's registers (R529). -/
theorem busWrite_register {s : State} {c : Cartridge} {a : Word} (hc : s.cart = some c) (h : 0x8000 ≤ a.toNat)
    (x : Byte) : busWrite s a x = { s with cart := some { c with regs := registerLaw a x c.regs } } := by
  rw [busWrite_cart (by omega), hc]
  show { s with cart := some (c.cpuWrite a x) } = _
  rw [Cartridge.cpuWrite, if_neg (by omega), if_neg (by omega), MapperRegs.write_law _ h]

/-! The serial load of variant B. -/

/-- A write with bit 7 set empties the shift register (R540). -/
theorem RegsB.write_reset (r : RegsB) (a : Word) {x : Byte} (h : 128 ≤ x.toNat) :
    r.write a x = { r with shiftReg := 0#5, shiftCount := 0 } := by
  rw [RegsB.write, byte_bit7, if_pos (decide_eq_true h)]

/-- The shift register with the low bit of a byte put at a place (R540). -/
def serialBit (v : BitVec 5) (k : Nat) (x : Byte) : BitVec 5 := v ||| ((if x.getLsbD 0 then 1#5 else 0#5) <<< k)

/-- A serial write that is not the fifth. -/
theorem RegsB.write_shift (r : RegsB) (a : Word) (v : BitVec 5) {k : Nat} {x : Byte} (hk : k < 4) (hx : x.toNat < 128) :
    ({ r with shiftReg := v, shiftCount := k } : RegsB).write a x =
      { r with shiftReg := serialBit v k x, shiftCount := k + 1 } := by
  have h7 : x.getLsbD 7 = false := (byte_bit7 x).trans (decide_eq_false (Nat.not_le.mpr hx))
  unfold RegsB.write
  simp only [h7, Bool.false_eq_true, if_false]
  rw [if_neg (by omega)]
  rfl

/-- The register the fifth serial write loads, by its address (R540). -/
def RegsB.load (r : RegsB) (a : Word) (v : BitVec 5) : RegsB :=
  if a.toNat < 0xA000 then
    { r with mirroring := v.extractLsb' 0 2, prgMode := v.extractLsb' 2 2, chrMode := v.getLsbD 4 }
  else if a.toNat < 0xC000 then { r with chrBank0 := v }
  else if a.toNat < 0xE000 then { r with chrBank1 := v }
  else { r with prgBank := v.extractLsb' 0 4, ramDisable := v.getLsbD 4 }

theorem RegsB.write_fifth (r : RegsB) (a : Word) (v : BitVec 5) {x : Byte} (hx : x.toNat < 128) :
    ({ r with shiftReg := v, shiftCount := 4 } : RegsB).write a x =
      RegsB.load { r with shiftReg := 0#5, shiftCount := 0 } a (serialBit v 4 x) := by
  have h7 : x.getLsbD 7 = false := (byte_bit7 x).trans (decide_eq_false (Nat.not_le.mpr hx))
  unfold RegsB.write
  simp only [h7, Bool.false_eq_true, if_false, if_true]
  rfl

/-- The five bits of a serial load, the first lowest. -/
def serialNumber (x0 x1 x2 x3 x4 : Byte) : Nat :=
  x0.toNat % 2 + 2 * (x1.toNat % 2) + 4 * (x2.toNat % 2) + 8 * (x3.toNat % 2) + 16 * (x4.toNat % 2)

theorem serialNumber_lt (x0 x1 x2 x3 x4 : Byte) : serialNumber x0 x1 x2 x3 x4 < 32 := by
  unfold serialNumber
  omega

/-- Five serial writes shift the number in. -/
theorem serialBits_eq (x0 x1 x2 x3 x4 : Byte) :
    serialBit (serialBit (serialBit (serialBit (serialBit 0#5 0 x0) 1 x1) 2 x2) 3 x3) 4 x4 =
      BitVec.ofNat 5 (serialNumber x0 x1 x2 x3 x4) := by
  have bits : ∀ b0 b1 b2 b3 b4 : Bool,
      ((((0#5 ||| ((if b0 then 1#5 else 0#5) <<< 0)) ||| ((if b1 then 1#5 else 0#5) <<< 1)) |||
        ((if b2 then 1#5 else 0#5) <<< 2)) ||| ((if b3 then 1#5 else 0#5) <<< 3)) |||
        ((if b4 then 1#5 else 0#5) <<< 4) =
      BitVec.ofNat 5 (carryNat b0 + 2 * carryNat b1 + 4 * carryNat b2 + 8 * carryNat b3 + 16 * carryNat b4) := by
    decide
  have hbit : ∀ x : Byte, carryNat (x.getLsbD 0) = x.toNat % 2 := by
    intro x
    rw [bit0_number]
    rcases Nat.mod_two_eq_zero_or_one x.toNat with e | e <;> rw [e] <;> rfl
  have h := bits (x0.getLsbD 0) (x1.getLsbD 0) (x2.getLsbD 0) (x3.getLsbD 0) (x4.getLsbD 0)
  simp only [hbit] at h
  exact h

/-- The fields the load cuts from the five bits (R535). -/
theorem serialFields {n : Nat} (h : n < 32) :
    (BitVec.ofNat 5 n).extractLsb' 0 2 = BitVec.ofNat 2 n ∧
      (BitVec.ofNat 5 n).extractLsb' 2 2 = BitVec.ofNat 2 (n / 4) ∧
      (BitVec.ofNat 5 n).extractLsb' 0 4 = BitVec.ofNat 4 n ∧
      (BitVec.ofNat 5 n).getLsbD 4 = decide (n / 16 = 1) := by
  have fields : ∀ n : Fin 32, (BitVec.ofNat 5 n).extractLsb' 0 2 = BitVec.ofNat 2 n ∧
      (BitVec.ofNat 5 n).extractLsb' 2 2 = BitVec.ofNat 2 (n / 4) ∧
      (BitVec.ofNat 5 n).extractLsb' 0 4 = BitVec.ofNat 4 n ∧
      (BitVec.ofNat 5 n).getLsbD 4 = decide ((n : Nat) / 16 = 1) := by decide
  exact fields ⟨n, h⟩

/-- Settles O54: the writes of all variants through the bus, then the serial load as four shifts and the load. -/
theorem mapperRegisterWrites : Obligations.MapperRegisterWrites := by
  refine ⟨fun s c a x hc h => busWrite_register hc h x, fun r a0 a1 a2 a3 a4 x0 x1 x2 x3 x4 =>
    ⟨r.write_reset a0, fun hreg hcount h0 h1 h2 h3 h4 => ?_⟩⟩
  have hr : r = { r with shiftReg := 0#5, shiftCount := 0 } := by rw [← hreg, ← hcount]
  obtain ⟨f02, f22, f04, f4⟩ := serialFields (serialNumber_lt x0 x1 x2 x3 x4)
  rw [hr, RegsB.write_shift _ _ _ (by decide) h0, RegsB.write_shift _ _ _ (by decide) h1,
    RegsB.write_shift _ _ _ (by decide) h2, RegsB.write_shift _ _ _ (by decide) h3, RegsB.write_fifth _ _ _ h4,
    serialBits_eq, RegsB.load, f02, f22, f04, f4]
  rfl

/-! The scanline counter of variant D. -/

/-- A pattern read with line 12 low, then one with it high. -/
def RegsD.edge (lo hi : BitVec 14) (q : RegsD) : RegsD := (q.clockA12 lo).clockA12 hi

/-- The counter after a rising edge: reloaded where it was 0 or a reload was asked for, else one less (R560). -/
def RegsD.nextCounter (q : RegsD) : Byte :=
  if q.irqCounter = 0#8 || q.irqReload then q.irqLatch else q.irqCounter - 1#8

theorem RegsD.clockA12_low (q : RegsD) {a : BitVec 14} (h : a.getLsbD 12 = false) :
    q.clockA12 a = { q with lastA12 := false } := by
  simp only [RegsD.clockA12, h, Bool.false_and, Bool.false_eq_true, if_false]

theorem RegsD.clockA12_rising {q : RegsD} {a : BitVec 14} (hq : q.lastA12 = false) (h : a.getLsbD 12 = true) :
    q.clockA12 a =
      { q with
        irqCounter := q.nextCounter
        irqReload := false
        mapperIrq := q.mapperIrq || (q.nextCounter = 0#8 && q.irqEnable)
        lastA12 := true } := by
  have hreload : (if q.irqCounter = 0#8 || q.irqReload then false else q.irqReload) = false := by
    cases q.irqReload <;> simp
  simp only [RegsD.clockA12, h, hq, Bool.not_false, Bool.and_self, if_true, hreload]
  rfl

section Edges

variable {lo hi : BitVec 14} (hlo : lo.toNat < 0x1000) (hhi : 0x1000 ≤ hi.toNat) (hhi' : hi.toNat < 0x2000)

include hlo hhi hhi'

theorem RegsD.edge_eq (q : RegsD) :
    q.edge lo hi =
      { q with
        irqCounter := q.nextCounter
        irqReload := false
        mapperIrq := q.mapperIrq || (q.nextCounter = 0#8 && q.irqEnable)
        lastA12 := true } := by
  have elo : lo.getLsbD 12 = false := by
    rw [getLsbD_number]
    exact decide_eq_false (by omega)
  have ehi : hi.getLsbD 12 = true := by
    rw [getLsbD_number]
    exact decide_eq_true (by omega)
  rw [RegsD.edge, q.clockA12_low elo, RegsD.clockA12_rising rfl ehi]
  rfl

/-- The counter counts the edges down from the latch, and the flag is raised where it is 0 (R560). -/
theorem RegsD.edge_iterate {r : RegsD} (hreload : r.irqReload = true) (hirq : r.mapperIrq = false) :
    ∀ n, n ≤ r.irqLatch.toNat → (RegsD.edge lo hi)^[n + 1] r =
      { r with
        irqCounter := BitVec.ofNat 8 (r.irqLatch.toNat - n)
        irqReload := false
        mapperIrq := decide (n = r.irqLatch.toNat) && r.irqEnable
        lastA12 := true }
  | 0, _ => by
    have hnext : r.nextCounter = BitVec.ofNat 8 r.irqLatch.toNat := by
      simp [RegsD.nextCounter, hreload]
    have hzero : decide (BitVec.ofNat 8 r.irqLatch.toNat = 0#8) = decide (0 = r.irqLatch.toNat) := by
      rw [decide_eq_decide, BitVec.ofNat_toNat, BitVec.setWidth_eq, ← BitVec.toNat_inj]
      exact eq_comm
    show r.edge lo hi = _
    rw [RegsD.edge_eq hlo hhi hhi', hnext, hirq, Bool.false_or, hzero]
    rfl
  | n + 1, hn => by
    have hlatch := r.irqLatch.isLt
    have ih := RegsD.edge_iterate hreload hirq n (by omega)
    have hnext : (if BitVec.ofNat 8 (r.irqLatch.toNat - n) = 0#8 || false then r.irqLatch
        else BitVec.ofNat 8 (r.irqLatch.toNat - n) - 1#8) = BitVec.ofNat 8 (r.irqLatch.toNat - (n + 1)) := by
      have hne : BitVec.ofNat 8 (r.irqLatch.toNat - n) ≠ 0#8 := by
        rw [ne_eq, ← BitVec.toNat_inj, BitVec.toNat_ofNat]
        show ¬ _ = 0
        omega
      rw [Bool.or_false, if_neg (by simpa using hne)]
      apply BitVec.eq_of_toNat_eq
      simp only [BitVec.toNat_sub, BitVec.toNat_ofNat]
      omega
    have hzero : decide (BitVec.ofNat 8 (r.irqLatch.toNat - (n + 1)) = 0#8) = decide (n + 1 = r.irqLatch.toNat) := by
      rw [decide_eq_decide, ← BitVec.toNat_inj, BitVec.toNat_ofNat]
      show _ = 0 ↔ _
      omega
    have hbefore : decide (n = r.irqLatch.toNat) = false := decide_eq_false (by omega)
    rw [Function.iterate_succ_apply', ih, RegsD.edge_eq hlo hhi hhi']
    simp only [RegsD.nextCounter, hnext, hzero, hbefore, Bool.false_and, Bool.false_or]

/-- With the interrupt disabled no edge raises the flag. -/
theorem RegsD.edge_iterate_disabled {r : RegsD} (hirq : r.mapperIrq = false) (henable : r.irqEnable = false) (n : Nat) :
    ((RegsD.edge lo hi)^[n] r).irqEnable = false ∧ ((RegsD.edge lo hi)^[n] r).mapperIrq = false := by
  induction n with
  | zero => exact ⟨henable, hirq⟩
  | succ n ih =>
    obtain ⟨ihenable, ihirq⟩ := ih
    rw [Function.iterate_succ_apply', RegsD.edge_eq hlo hhi hhi', ihenable, ihirq]
    exact ⟨rfl, Bool.and_false _⟩

end Edges

/-- Settles O55: the edges by the counter, and a picture-bus read from 0x2000 on. -/
theorem scanlineCounterOfVariantD : Obligations.ScanlineCounterOfVariantD := by
  refine ⟨fun r lo hi n hlo hhi hhi' hreload hirq _ => ⟨fun henable hn => ?_, fun henable => ?_⟩,
    fun c a h => if_neg (Nat.not_lt.mpr h)⟩
  · show ((RegsD.edge lo hi)^[n] r).mapperIrq = _
    cases n with
    | zero => exact hirq.trans (decide_eq_false (by omega)).symm
    | succ n =>
      rw [RegsD.edge_iterate hlo hhi hhi' hreload hirq n (by omega), henable, Bool.and_true]
      exact decide_eq_decide.mpr (by omega)
  · exact (RegsD.edge_iterate_disabled hlo hhi hhi' hirq henable n).2

end Sys2Proof.Machine
end

section
/-! PROOFS. Reset and load (spec/70_reset_and_hazards.md; spec/64_mappers.md R522, R570): what the mappers show after
their reset, which images are accepted, and what a reset leaves. -/

namespace Sys2Proof.Machine

/-! The program data a mapper shows. -/

/-- A bank count the masks of R521 take is a power of two (D45). -/
theorem Header.prgBanks_power {h : Header} (hc : h.countsOk = true) : ∃ k, h.prgBanks = 2 ^ k := by
  have hmem : h.prgBanks ∈ bankCounts := by
    rw [Header.countsOk, Bool.and_eq_true] at hc
    exact List.contains_iff_mem.mp hc.1
  have hpower : ∀ n ∈ bankCounts, ∃ k < 8, n = 2 ^ k := by decide
  obtain ⟨k, -, e⟩ := hpower _ hmem
  exact ⟨k, e⟩

theorem Header.prgBanks_pos {h : Header} (hc : h.countsOk = true) : 0 < h.prgBanks := by
  obtain ⟨k, e⟩ := h.prgBanks_power hc
  rw [e]
  positivity

/-- The program mask is a remainder (R521). -/
theorem Header.and_prgMask {h : Header} (hc : h.countsOk = true) (o : Nat) :
    o &&& h.prgMask = o % (0x4000 * h.prgBanks) := by
  obtain ⟨k, e⟩ := h.prgBanks_power hc
  have hsize : 0x4000 * h.prgBanks = 2 ^ (14 + k) := by
    rw [e, Nat.pow_add]
  rw [Header.prgMask, hsize, Nat.and_two_pow_sub_one_eq_mod]

/-- A program read is of the image byte at the offset the mapper selects, reduced to the program data (R570). -/
theorem Cartridge.cpuRead_program {c : Cartridge} {a : Word} (hc : c.header.countsOk = true) (ha : 0x8000 ≤ a.toNat) :
    c.cpuRead a =
      Memory.read c.image (c.header.prgBase + c.prgOffset a % (0x4000 * c.header.prgBanks)) := by
  rw [Cartridge.cpuRead, if_neg (by omega), if_neg (by omega), Cartridge.prgRom, Header.and_prgMask hc]

theorem Cartridge.reset_image (c : Cartridge) (p : PowerOn) (hard : Bool) : (c.reset p hard).image = c.image := by
  cases hard <;> rfl

theorem Cartridge.reset_size (c : Cartridge) (p : PowerOn) (hard : Bool) : (c.reset p hard).size = c.size := by
  cases hard <;> rfl

theorem Cartridge.reset_header (c : Cartridge) (p : PowerOn) (hard : Bool) : (c.reset p hard).header = c.header := by
  cases hard <;> rfl

theorem Cartridge.reset_regs (c : Cartridge) (p : PowerOn) (hard : Bool) : (c.reset p hard).regs = c.regs.reset := by
  cases hard <;> rfl

/-- The offset at the vectors after the reset of the variants that show the last bank there (R536, R545, R556). -/
theorem Cartridge.prgOffset_reset_last {c : Cartridge} (p : PowerOn) (hard : Bool) {a : Word}
    (hb : 0 < c.header.prgBanks) (ha : 0xE000 ≤ a.toNat)
    (hv : c.regs.variant = 1 ∨ c.regs.variant = 2 ∨ c.regs.variant = 4) :
    (c.reset p hard).prgOffset a = 0x4000 * (c.header.prgBanks - 1) + a.toNat % 0x4000 := by
  have hlt := a.isLt
  rw [Cartridge.prgOffset, c.reset_regs, c.reset_header]
  cases hr : c.regs with
  | variantB r =>
    show RegsB.reset.prgOffset c.header.prgBanks a = _
    rw [RegsB.prgOffset, if_neg (by decide), if_neg (by decide), if_neg (by omega)]
  | variantC b => exact if_neg (by omega)
  | variantD r =>
    show 0x2000 * RegsD.reset.prgBank c.header.prgBanks a + a.toNat % 0x2000 = _
    unfold RegsD.prgBank
    dsimp only
    rw [if_neg (by omega), if_neg (by omega), if_neg (by omega)]
    omega
  | variantA | cnrom _ | variantE _ _ =>
    simp [hr, MapperRegs.variant] at hv

/-- The offset of the variants that show the image from its start (R530, R549, R565). -/
theorem Cartridge.prgOffset_reset_first {c : Cartridge} (p : PowerOn) (hard : Bool) (a : Word)
    (hv : c.regs.variant = 0 ∨ c.regs.variant = 3 ∨ c.regs.variant = 7) :
    (c.reset p hard).prgOffset a = a.toNat % 0x8000 := by
  rw [Cartridge.prgOffset, c.reset_regs]
  cases hr : c.regs with
  | variantA => rfl
  | cnrom b => rfl
  | variantE b n => exact Nat.zero_add _
  | variantB _ | variantC _ | variantD _ =>
    simp [hr, MapperRegs.variant] at hv

/-- Settles O56: the offset of each variant after its reset, and that the mask keeps every read in the program data. -/
theorem vectorsAfterReset : Obligations.VectorsAfterReset := by
  intro c p a hard hc ha
  have hb := Header.prgBanks_pos hc
  have hread : (c.reset p hard).cpuRead a = Memory.read c.image (c.header.prgBase +
      (c.reset p hard).prgOffset a % (0x4000 * c.header.prgBanks)) := by
    rw [Cartridge.cpuRead_program (by rw [c.reset_header]; exact hc) ha, c.reset_header, c.reset_image]
  dsimp only
  refine ⟨fun hv hlast => ?_, fun hfirst => ?_, ?_⟩
  · rw [hread, Cartridge.prgOffset_reset_last p hard hb hv hlast, Nat.mod_eq_of_lt (by omega), Nat.add_assoc]
  · rw [hread, Cartridge.prgOffset_reset_first p hard a hfirst]
  · exact ⟨_, Nat.mod_lt _ (by omega), Cartridge.cpuRead_program hc ha⟩

/-! The state a reset answers. -/

theorem MapperRegs.reset_variant (m : MapperRegs) : m.reset.variant = m.variant := by cases m <;> rfl

/-- The reset rule of every variant gives the values its rule lists (R531, R541, R546, R550, R561, R566). -/
theorem MapperRegs.reset_atReset (m : MapperRegs) : m.reset.AtReset := by
  cases m with
  | variantA => trivial
  | variantB r => exact ⟨rfl, rfl, rfl, rfl, rfl, rfl, rfl, rfl, rfl⟩
  | variantC b => rfl
  | cnrom b => rfl
  | variantD r => exact ⟨fun _ => rfl, rfl, rfl, rfl, rfl, rfl, rfl, rfl, rfl, rfl, rfl⟩
  | variantE b n => exact ⟨rfl, rfl⟩

/-- The values every reset sets, hard or soft (R600). -/
structure State.AtReset (t : State) : Prop where
  sp : t.sp = 0xFD#8
  status : statusByte false t = 0x24#8
  cyclesRemaining : t.cyclesRemaining = 7
  masterCycle : t.masterCycle = 0
  pc : t.pc = pairAt t 0xFFFC#16 0xFFFD#16
  nmiPending : t.nmiPending = false
  irqPending : t.irqPending = false
  port1 : t.port1 = { current := 0#8, latched := 0#8 }
  port2 : t.port2 = { current := 0#8, latched := 0#8 }
  strobe : t.strobe = false
  inDma : t.inDma = false
  dmaPage : t.dmaPage = 0#8
  dmaCounter : t.dmaCounter = 0
  dmaValue : t.dmaValue = 0#8
  apu : t.apu = Apu.reset

theorem resetWith_atReset (hard : Bool) (c : Cartridge) (s : State) : (resetWith hard c s).AtReset := by
  rw [resetWith_eq]
  exact ⟨rfl, rfl, rfl, rfl, rfl, rfl, rfl, rfl, rfl, rfl, rfl, rfl, rfl, rfl, rfl⟩

/-- The cartridge and the arguments after a reset (R531, R600). -/
theorem resetWith_cart (hard : Bool) (c : Cartridge) (s : State) :
    (resetWith hard c s).cart = some (c.reset s.args.powerOn hard) := by
  rw [resetWith_eq]

theorem resetWith_args (hard : Bool) (c : Cartridge) (s : State) : (resetWith hard c s).args = s.args := by
  rw [resetWith_eq]

/-- A hard reset clears A, X and Y and sets work RAM and the picture unit's RAMs to POWER_ON_RAM (R36, R37). -/
theorem resetWith_hard (c : Cartridge) (s : State) :
    (resetWith true c s).a = 0#8 ∧ (resetWith true c s).x = 0#8 ∧ (resetWith true c s).y = 0#8 ∧
      (resetWith true c s).ram = s.args.powerOn.work ∧ (resetWith true c s).ppu = Ppu.hardReset s.args.powerOn := by
  rw [resetWith_eq]
  exact ⟨rfl, rfl, rfl, rfl, rfl⟩

/-- A soft reset keeps A, X, Y and work RAM (R603). -/
theorem resetWith_soft (c : Cartridge) (s : State) :
    (resetWith false c s).a = s.a ∧ (resetWith false c s).x = s.x ∧ (resetWith false c s).y = s.y ∧
      (resetWith false c s).ram = s.ram ∧ (resetWith false c s).ppu = Ppu.softReset s.args.softReset s.ppu := by
  rw [resetWith_eq]
  exact ⟨rfl, rfl, rfl, rfl, rfl⟩

/-- Every reset puts the picture unit at the start of a frame, its address and its NMI enable cleared (R381). -/
theorem resetWith_picture (hard : Bool) (c : Cartridge) (s : State) :
    (resetWith hard c s).ppu.v = 0#15 ∧ (resetWith hard c s).ppu.dot = 0 ∧ (resetWith hard c s).ppu.scanline = 0 ∧
      (resetWith hard c s).ppu.nmiEnable = false := by
  cases hard with
  | true =>
    obtain ⟨-, -, -, -, hppu⟩ := resetWith_hard c s
    rw [hppu]
    exact ⟨rfl, rfl, rfl, rfl⟩
  | false =>
    obtain ⟨-, -, -, -, hppu⟩ := resetWith_soft c s
    rw [hppu]
    cases s.args.softReset <;> exact ⟨rfl, rfl, rfl, rfl⟩

/-- A reset of a machine in its ranges leaves one (R36, R37). -/
theorem resetWith_inv {s : State} {c : Cartridge} (h : s.Inv) (hc : c.Ok) (hard : Bool) : (resetWith hard c s).Inv := by
  have hpower := h.powerOn
  rw [resetWith_eq]
  refine ⟨le_refl 7, ?_, Nat.zero_le _, ?_, Apu.Ok.reset, ?_, h.cycleTable, hpower⟩
  · cases hard
    · exact h.ram
    · exact hpower.work
  · cases hard
    · exact h.ppu.softReset _
    · exact Ppu.Ok.hardReset hpower
  · intro d hd
    injection hd with hd
    exact hd ▸ hc.reset hpower hard

/-! Loading an image. -/

/-- The variant a mapper identifier names is at its reset values, and its number is the identifier (R528). -/
theorem variantOf_some {i : Byte} {m : MapperRegs} (h : variantOf i = some m) :
    m.variant = i.toNat ∧ m.reset = m ∧ i.toNat ∈ [0, 1, 2, 3, 4, 7] := by
  unfold variantOf at h
  split_ifs at h with e e e e e e <;> injection h with h <;> subst h <;> subst e <;> exact ⟨rfl, rfl, by decide⟩

theorem variantOf_none {i : Byte} (h : variantOf i = none) : i.toNat ∉ [0, 1, 2, 3, 4, 7] := by
  revert h
  revert i
  decide

/-- The cartridge of an image that names a variant (R520, R522). -/
def loadedCartridge (p : PowerOn) (rom : List Byte) (regs : MapperRegs) : Cartridge :=
  { header := headerOf rom, image := Memory.ofBytes 0 rom, size := rom.length, prgRam := p.program
    chrRam := p.character, ntRam := Memory.below (headerOf rom).ntSize p.nametable, regs := regs }

/-- An image passes every test of R522 or is refused. -/
theorem cartridgeOf_ok_iff (p : PowerOn) (rom : List Byte) (c : Cartridge) :
    cartridgeOf p rom = .ok c ↔
      16 ≤ rom.length ∧ rom.take 4 = magic ∧ (headerOf rom).minLength ≤ rom.length ∧
        (headerOf rom).countsOk = true ∧
        ∃ regs, variantOf (headerOf rom).mapperId = some regs ∧ c = loadedCartridge p rom regs := by
  unfold cartridgeOf
  dsimp only
  by_cases h1 : rom.length < 16
  · rw [if_pos h1]
    exact ⟨fun e => (nomatch e), fun ⟨hlength, _⟩ => absurd h1 (Nat.not_lt.mpr hlength)⟩
  rw [if_neg h1]
  by_cases h2 : rom.take 4 = magic
  swap
  · rw [if_pos h2]
    exact ⟨fun e => (nomatch e), fun ⟨_, hmagic, _⟩ => absurd hmagic h2⟩
  rw [if_neg (not_not.mpr h2)]
  by_cases h3 : rom.length < (headerOf rom).minLength
  · rw [if_pos h3]
    exact ⟨fun e => (nomatch e), fun ⟨_, _, hmin, _⟩ => absurd h3 (Nat.not_lt.mpr hmin)⟩
  rw [if_neg h3]
  cases variantOf (headerOf rom).mapperId with
  | none => exact ⟨fun e => (nomatch e), fun ⟨_, _, _, _, _, e, _⟩ => (nomatch e)⟩
  | some regs =>
    dsimp only
    by_cases h4 : (headerOf rom).countsOk = true
    · rw [if_pos h4]
      constructor
      · intro e
        injection e with e
        exact ⟨Nat.not_lt.mp h1, h2, Nat.not_lt.mp h3, h4, regs, rfl, e.symm⟩
      · rintro ⟨-, -, -, -, regs', e, rfl⟩
        injection e with e
        subst e
        rfl
    · rw [if_neg h4]
      exact ⟨fun e => (nomatch e), fun ⟨_, _, _, hcounts, _⟩ => absurd hcounts h4⟩

theorem loadCartridge_ok_iff (rom : List Byte) (s t : State) :
    loadCartridge rom s = .ok t ↔ ∃ c, cartridgeOf s.args.powerOn rom = .ok c ∧ t = resetWith true c s := by
  unfold loadCartridge
  cases cartridgeOf s.args.powerOn rom with
  | error e => exact ⟨fun e => (nomatch e), fun ⟨_, e, _⟩ => (nomatch e)⟩
  | ok c =>
    constructor
    · intro e
      injection e with e
      exact ⟨c, rfl, e.symm⟩
    · rintro ⟨c', e, rfl⟩
      injection e with e
      subst e
      rfl

/-- Settles O57: an image is accepted by the tests of R522, and what it leaves is a hard reset with its cartridge. -/
theorem loadAcceptsExactlyValidImages : Obligations.LoadAcceptsExactlyValidImages := by
  intro rom s
  refine ⟨⟨?_, ?_⟩, ?_⟩
  · rintro ⟨t, e⟩
    obtain ⟨c, hc, -⟩ := (loadCartridge_ok_iff rom s t).mp e
    obtain ⟨hlength, hmagic, hmin, hcounts, regs, hregs, -⟩ := (cartridgeOf_ok_iff _ rom c).mp hc
    obtain ⟨-, -, hid⟩ := variantOf_some hregs
    exact ⟨hlength, hmagic, hmin, hid, hcounts⟩
  · rintro ⟨hlength, hmagic, hmin, hid, hcounts⟩
    cases hv : variantOf (headerOf rom).mapperId with
    | none => exact absurd hid (variantOf_none hv)
    | some regs =>
      exact ⟨_, (loadCartridge_ok_iff rom s _).mpr
        ⟨_, (cartridgeOf_ok_iff _ rom _).mpr ⟨hlength, hmagic, hmin, hcounts, regs, hv, rfl⟩, rfl⟩⟩
  · intro t e
    obtain ⟨c, hc, rfl⟩ := (loadCartridge_ok_iff rom s t).mp e
    obtain ⟨-, -, -, -, regs, hregs, rfl⟩ := (cartridgeOf_ok_iff _ rom c).mp hc
    obtain ⟨hvariant, hreset, -⟩ := variantOf_some hregs
    have h := resetWith_atReset true (loadedCartridge s.args.powerOn rom regs) s
    obtain ⟨ha, hx, hy, hram, hppu⟩ := resetWith_hard (loadedCartridge s.args.powerOn rom regs) s
    refine ⟨ha, hx, hy, h.sp, h.status, h.cyclesRemaining, h.masterCycle, h.pc, h.nmiPending, h.irqPending, hram,
      h.port1, h.port2, h.strobe, h.inDma, h.dmaPage, h.dmaCounter, h.dmaValue, hppu, h.apu, resetWith_args _ _ _,
      _, resetWith_cart _ _ _, rfl, rfl, fun k _ => ?_, ?_, MapperRegs.reset_atReset _, ite_self _, rfl, rfl⟩
    · have hread := Memory.read_ofBytes rom 0 k
      rw [Nat.zero_add] at hread
      exact hread
    · exact (MapperRegs.reset_variant _).trans hvariant

/-! Resetting with a cartridge. -/

theorem hostReset_some {s : State} {c : Cartridge} (h : s.cart = some c) (hard : Bool) :
    hostReset hard s = .next (resetWith hard c s) := by
  rw [hostReset, h]

theorem hostReset_none {s : State} (h : s.cart = none) (hard : Bool) : hostReset hard s = .refused .noCartridge := by
  rw [hostReset, h]

/-- A reset that answers a next state has a cartridge. -/
theorem hostReset_next {s t : State} {hard : Bool} (e : hostReset hard s = .next t) :
    ∃ c, s.cart = some c ∧ t = resetWith hard c s := by
  cases hc : s.cart with
  | none =>
    rw [hostReset_none hc] at e
    cases e
  | some c =>
    rw [hostReset_some hc] at e
    injection e with e
    exact ⟨c, rfl, e.symm⟩

theorem Header.ntSize_le (h : Header) : h.ntSize ≤ 0x1000 := by
  unfold Header.ntSize
  split <;> decide

/-- After a hard reset of a machine given contents every RAM reads them (R37, R531). -/
theorem hardReset_contents (contents : Ram → Nat → Byte) {s t : State} {d : Cartridge} (k : Nat)
    (e : hostReset true (s.withPowerOn contents) = .next t) (hd : t.cart = some d) :
    (k < 0x800 → Memory.read t.ram k = contents .work k) ∧
      (k < 0x100 → Memory.read t.ppu.oam k = contents .oam k) ∧
      (k < 0x20 → Memory.read t.ppu.palette k = contents .palette k) ∧
      (k < d.header.ntSize → Memory.read d.ntRam k = contents .nametable k) ∧
      (k < 0x2000 → Memory.read d.chrRam k = contents .character k) ∧
      (k < 0x2000 → d.header.battery = false → Memory.read d.prgRam k = contents .program k) := by
  obtain ⟨c, -, rfl⟩ := hostReset_next e
  obtain ⟨-, -, -, hram, hppu⟩ := resetWith_hard c (s.withPowerOn contents)
  rw [resetWith_cart] at hd
  injection hd with hd
  subst hd
  rw [hram, hppu]
  refine ⟨read_ramOf contents (r := .work), read_ramOf contents (r := .oam), read_ramOf contents (r := .palette),
    fun hk => ?_, read_ramOf contents (r := .character), fun hk hbattery => ?_⟩
  · have hlt : k < Ram.nametable.size := Nat.lt_of_lt_of_le hk (Header.ntSize_le _)
    exact (Memory.read_below (powerOnOf_ok contents).nametable.1 hk).trans (read_ramOf contents hlt)
  · have hprg : (c.reset (s.withPowerOn contents).args.powerOn true).prgRam = ramOf contents .program := by
      show (if c.header.battery then c.prgRam else ramOf contents .program) = _
      rw [if_neg]
      exact Bool.eq_false_iff.mp hbattery
    rw [hprg]
    exact read_ramOf contents (r := .program) hk

/-- Settles O58: a reset's fixed values, what a soft and a hard one do to the rest, the contents given, and the
invariant. -/
theorem resetKeepsAndClears : Obligations.ResetKeepsAndClears := by
  refine ⟨fun s hard => ⟨fun hc => hostReset_none hc hard, fun c hc => ?_⟩,
    fun contents s t d k => hardReset_contents contents k, fun s => powerOnOf_zero,
    fun contents k l r hk => ?_, fun s t hard h e => ?_⟩
  · have h := resetWith_atReset hard c s
    obtain ⟨hv, hdot, hscanline, hnmi⟩ := resetWith_picture hard c s
    refine ⟨_, _, hostReset_some hc hard, resetWith_cart hard c s, c.reset_regs _ _, ?_, ?_, c.reset_image _ _,
      c.reset_size _ _, c.reset_header _ _, h.sp, h.status, h.cyclesRemaining, h.masterCycle, h.pc, h.inDma,
      h.nmiPending, h.irqPending, h.port1, h.port2, h.strobe, h.dmaPage, h.dmaCounter, h.dmaValue, h.apu, hv, hdot,
      hscanline, hnmi, resetWith_args hard c s, ?soft, ?hard⟩
    · rw [c.reset_regs]
      exact MapperRegs.reset_variant _
    · rw [c.reset_regs]
      exact MapperRegs.reset_atReset _
    case soft =>
      rintro rfl
      obtain ⟨ha, hx, hy, hram, hppu⟩ := resetWith_soft c s
      refine ⟨ha, hx, hy, hram, fun hk => ?_, fun hk => ?_, rfl, rfl, rfl⟩
      · rw [hppu, hk]
        rfl
      · rw [hppu, hk]
        rfl
    case hard =>
      rintro rfl
      obtain ⟨ha, hx, hy, hram, hppu⟩ := resetWith_hard c s
      exact ⟨ha, hx, hy, hram, hppu, rfl, rfl, fun hbattery => if_pos hbattery,
        fun hbattery => if_neg (Bool.eq_false_iff.mp hbattery)⟩
  · have hpower := powerOnOf_ok contents
    exact ⟨le_refl 7, hpower.work, Nat.zero_le _, Ppu.Ok.hardReset hpower, Apu.Ok.reset, fun c hc => (nomatch hc), hk,
      hpower⟩
  · obtain ⟨c, hc, rfl⟩ := hostReset_next e
    exact resetWith_inv h (h.cart c hc) hard

end Sys2Proof.Machine
end
